-- ==== Sys2Proof/Word.lean ====
section
/-! DEFINITION. The words OCB moves: bytes, 32-bit control words, byte strings (00_scope.md R10; 30_encoding.md R80). -/

namespace Sys2Proof

/-- A byte, 0 to 255 (00_scope.md R10). -/
abbrev Byte := BitVec 8

/-- A 32-bit control or command word (30_encoding.md R80; 10_state.md R29, R33 to R36). -/
abbrev Word := BitVec 32

/-- A byte string; index 0 is the first (leftmost) byte (00_scope.md R10). -/
abbrev Bytes := List Byte

end Sys2Proof
end

