-- ==== Sys2Proof/Config.lean ====
section
/-! DEFINITION. The parameters of a build (00_scope.md R5, R6, R8, R9) and the free values the spec leaves open. -/

namespace Sys2Proof

/-- One build of OCB together with its collaborators: the parameters of 00_scope.md R9 with the constraints the rules
put on them, and the answers of the `Rand` port. Nothing else about them may be assumed. -/
structure Build where
  /-- `HLEN`, the digest length in bytes (R5). -/
  hlen : Nat
  /-- `CAP`, the register capacity in bytes (R8). -/
  cap : Nat
  /-- `Hash`, total and deterministic (R5). -/
  hash : Bytes → Bytes
  /-- What `Rand` answers: `rand d count` is the answer of draw number `d` to a request of `count` bytes (R6). -/
  rand : Nat → Nat → Bytes
  hlen_pos : 1 ≤ hlen
  cap_pos : 1 ≤ cap
  cap_lt : cap < 2 ^ 24
  hash_length : ∀ b, (hash b).length = hlen
  rand_length : ∀ d count, (rand d count).length = count

namespace Config

/-- Free: `HLEN - 1`; `HLEN` is fixed at build time and only `HLEN >= 1` is known (00_scope.md R5). Log entry 1. -/
opaque hlenLessOne : Nat

/-- Free: any number; it settles `CAP` within `1 .. 2^24-1` (00_scope.md R8). Log entry 1. -/
opaque capChoice : Nat

/-- Free: byte `j` of `Hash(b)` (00_scope.md R5, 93_implementation_defined.md U1). Log entry 1. -/
opaque hashByte (b : Bytes) (j : Nat) : Byte

/-- Free: byte `j` of the answer to `Rand` call number `draw` (00_scope.md R6, 93_implementation_defined.md U5). Log entry 2. -/
opaque randByte (draw j : Nat) : Byte

/-- Free: what `HLENR` reads in a build whose `HLEN` does not fit its 32 bits. 10_state.md R35 has a 32-bit view of `HLEN`,
and 00_scope.md R5, R9 bound `HLEN` only from below, so the spec states no word there. DESIGN CHOICE, log entry 17. -/
opaque hlenrTooWide (hlen : Nat) : Word

/-- The build the machine is: every parameter free within its constraint. Every `Build` is one choice of the free values. -/
def build : Build where
  hlen := hlenLessOne + 1
  cap := capChoice % (2 ^ 24 - 1) + 1
  hash b := (List.range (hlenLessOne + 1)).map (hashByte b)
  rand d count := (List.range count).map (randByte d)
  hlen_pos := by omega
  cap_pos := by omega
  cap_lt := by omega
  hash_length := by simp
  rand_length := by simp

end Config

end Sys2Proof
end

