-- ==== Sys2Proof/Machine/State.lean ====
section
/-! DEFINITION. The state of OCB as plain data (10_state.md R20), the host port's transactions and responses
(40_host_transfers.md R100), the port-call trace (20_memory.md R73), and the state after reset (10_state.md R40). -/

namespace Sys2Proof.Machine

/-- The latched record `CM` (10_state.md R27). -/
structure CompositeModulus where
  n : Nat
  p : Nat
  q : Nat
  gf : Nat
  deriving DecidableEq, Repr

/-- What one transaction carries (20_memory.md R61, R62): a byte string, or the 32-bit value of a control register
(byte lanes belong to `BusBinding`). -/
inductive Payload where
  | bytes (b : Bytes)
  | word (w : Word)
  deriving DecidableEq, Repr

/-- What stands at OCB's port: a host transaction (40_host_transfers.md R100), or the reset input asserted between two
transactions (70_reset_and_hazards.md R220). -/
inductive Transaction where
  | wr (id : Nat) (payload : Payload)
  | rd (id : Nat)
  | reset
  deriving DecidableEq, Repr

/-- The answer to a host transaction (40_host_transfers.md R100): `OKAY`, `OKAY` with a `RD`'s payload, or `ERROR`
(refused: no state change, no data). -/
inductive Response where
  | okay
  | data (payload : Payload)
  | error
  deriving DecidableEq, Repr

/-- One call on an external port with its arguments (00_scope.md R5, R6, R7; 20_memory.md R73). -/
inductive PortCall where
  | hash (arg : Bytes)
  | rand (count : Nat)
  | modExp (base exp modulus : Nat)
  deriving DecidableEq, Repr

/-- The state. A register with a valid bit is an `Option`: `none` is valid bit 0, and then it holds no value
(10_state.md R26; log entry 6). The last four fields are the model's own (10_state.md R39; log entries 2 to 5). -/
structure State where
  /-- Integer operand registers `N P Q GF X E` (R21). -/
  n : Option Nat
  p : Option Nat
  q : Option Nat
  gf : Option Nat
  x : Option Nat
  e : Option Nat
  /-- Integer result register `R` (R22). -/
  r : Option Nat
  /-- Byte-buffer operand registers `IN`, `LBL` (R23). -/
  inp : Option Bytes
  lbl : Option Bytes
  /-- Byte-buffer result register `OUT` (R24). -/
  out : Option Bytes
  /-- The latched composite modulus `CM` (R27). -/
  cm : Option CompositeModulus
  /-- `STATUS` (R29). -/
  status : Word
  /-- The model's own: what the host and the platform have yet to present at the port, oldest first. -/
  pending : List Transaction
  /-- The model's own: the responses the port has given, oldest first. -/
  responses : List Response
  /-- The model's own: the calls made on the three ports, oldest first. -/
  trace : List PortCall
  /-- The model's own: how many `Rand` calls have been made, the argument of the next free answer. -/
  draws : Nat
  deriving DecidableEq, Repr

/-- The state after reset (10_state.md R40): nothing valid but `LBL`, which is empty; `STATUS = 0`. The model's own
fields are empty and 0 (DESIGN CHOICE, log entries 2 to 5). -/
def State.reset : State where
  n := none
  p := none
  q := none
  gf := none
  x := none
  e := none
  r := none
  inp := none
  lbl := some []
  out := none
  cm := none
  status := 0x00000000#32
  pending := []
  responses := []
  trace := []
  draws := 0

/-- The reasons the machine stops. -/
inductive Fault where
  /-- `ModExp` reached with a modulus below 2, for which its contract gives no result (00_scope.md R7;
  93_implementation_defined.md U12: "fault if reached"). Raised by `modExpPort` for `CRT_MODPOW` when `CM.p` or `CM.q` is 0,
  which 10_state.md R27 excludes. Safe: the model stops and no run reaches it (log entry 8). -/
  | modulusBelowTwo
  deriving DecidableEq, Repr

/-- The reasons the model has no meaning for a step. -/
inductive Refusal where
  /-- A command without a meaning in this model, raised by an arm of `exec`. Safe. No arm raises it. -/
  | notModelled (mnemonic : String)
  deriving DecidableEq, Repr

/-- What a step or a command answers. -/
abbrev Result := Host.Outcome State Fault Refusal

end Sys2Proof.Machine
end

