-- ==== Sys2Proof/Machine/Flags.lean ====
section
/-! DEFINITION. STATUS: its fields, the failure codes and classes; and the read-only views VALID, HLENR, CAPR, INLEN,
LBLLEN, OUTLEN (10_state.md R29, R31, R34 to R36; 60_exceptions.md R192). -/

namespace Sys2Proof.Machine

/-- The failures OCB can raise (60_exceptions.md R192). -/
inductive Failure where
  | illegalCmd
  | missingOperand
  | lenRange
  | msgTooLong
  | cmNonpositive
  | modZero
  | padShort
  | padLead
  | padNoMarker
  | padEmptyMsg
  | padLabel
  deriving DecidableEq, Repr

/-- The `CODE` column of 60_exceptions.md R192. -/
def Failure.code : Failure → Nat
  | .illegalCmd => 0x01
  | .missingOperand => 0x02
  | .lenRange => 0x03
  | .msgTooLong => 0x04
  | .cmNonpositive => 0x05
  | .modZero => 0x06
  | .padShort => 0x10
  | .padLead => 0x11
  | .padNoMarker => 0x12
  | .padEmptyMsg => 0x13
  | .padLabel => 0x14

/-- The failure classes OCB produces, with their numbers (10_state.md R31): 1 `PRECONDITION`, 3 `FORMAT`. -/
def classPrecondition : Nat := 1

def classFormat : Nat := 3

/-- The `CLASS` column of 60_exceptions.md R192. -/
def Failure.class : Failure → Nat
  | .illegalCmd => classPrecondition
  | .missingOperand => classPrecondition
  | .lenRange => classPrecondition
  | .msgTooLong => classPrecondition
  | .cmNonpositive => classPrecondition
  | .modZero => classPrecondition
  | .padShort => classFormat
  | .padLead => classFormat
  | .padNoMarker => classFormat
  | .padEmptyMsg => classFormat
  | .padLabel => classFormat

/-- `STATUS` from its three fields: `CODE` 15:8, `CLASS` 7:4, `STATE` 1:0, the rest 0 (10_state.md R29). -/
def statusOf (code cls state : Nat) : Word :=
  (BitVec.ofNat 32 code <<< 8) ||| (BitVec.ofNat 32 cls <<< 4) ||| BitVec.ofNat 32 state

/-- `STATUS` before any command: `STATE = IDLE` (10_state.md R29, R40). -/
def statusIdle : Word := statusOf 0 0 0

/-- `STATUS` after success: `STATE = OK`, `CLASS = 0`, `CODE = 0` (60_exceptions.md R195). -/
def statusOk : Word := statusOf 0 0 1

/-- `STATUS` after failure `c`: `STATE = FAIL` with the class and code of `c` (60_exceptions.md R192, R196). -/
def Failure.statusWord (c : Failure) : Word := statusOf c.code c.class 2

/-- Field `STATE`, bits 1:0 (10_state.md R29). -/
def statusState (w : Word) : Nat := (w.extractLsb' 0 2).toNat

/-- Field `CLASS`, bits 7:4 (10_state.md R29). -/
def statusClass (w : Word) : Nat := (w.extractLsb' 4 4).toNat

/-- Field `CODE`, bits 15:8 (10_state.md R29). -/
def statusCode (w : Word) : Nat := (w.extractLsb' 8 8).toNat

/-- Each bit of `VALID` that stands for a register, with that register's valid bit (10_state.md R34). -/
def State.validBits (s : State) : List (Nat × Bool) :=
  [(0, s.n.isSome), (1, s.p.isSome), (2, s.q.isSome), (3, s.gf.isSome), (4, s.x.isSome), (5, s.e.isSome),
   (6, s.r.isSome), (8, s.inp.isSome), (9, s.lbl.isSome), (10, s.out.isSome), (16, s.cm.isSome)]

/-- The view `VALID`; all other bits read 0 (10_state.md R34). -/
def State.validWord (s : State) : Word :=
  s.validBits.foldl (fun w b => if b.2 then w ||| (1#32 <<< b.1) else w) 0#32

/-- A 32-bit view of a number below `2^32`, zero-extended (10_state.md R35, R36). `CAP` and every buffer length a run reaches
are below `2^24` (00_scope.md R8; 10_state.md R23, R24). A buffer of `2^32` bytes or more, in states no run reaches, would
read as its length mod `2^32` (DESIGN CHOICE, log entry 17). -/
def numberView (v : Nat) : Word := BitVec.ofNat 32 v

/-- `HLENR`: `HLEN` zero-extended (10_state.md R35). For `HLEN >= 2^32`, which 00_scope.md R5 and R9 do not exclude, the
spec states no word, and the read answers a free one that never changes (DESIGN CHOICE, log entry 17). -/
def hlenView (B : Build) : Word := if B.hlen < 2 ^ 32 then numberView B.hlen else Config.hlenrTooWide B.hlen

/-- `CAPR` (10_state.md R35). -/
def capView (B : Build) : Word := numberView B.cap

/-- `INLEN`, `LBLLEN`, `OUTLEN`: the buffer's length, 0 when it is invalid (10_state.md R36). -/
def lengthView (buf : Option Bytes) : Word :=
  match buf with
  | some b => numberView b.length
  | none => numberView 0

end Sys2Proof.Machine
end

