-- ==== Sys2Proof/Machine/Operands.lean ====
section
/-! DEFINITION. Byte strings and integers: the conversions and string operations of 00_scope.md R10 to R13. -/

namespace Sys2Proof.Machine

/-- `BytesToInt(b)`: big-endian, index 0 most significant, the empty string 0, never negative (00_scope.md R11). -/
def bytesToInt (b : Bytes) : Nat := b.foldl (fun acc byte => acc * 256 + byte.toNat) 0

/-- `IntToBytes(v, L)`: the big-endian byte string of length `L` of `v < 256^L` (00_scope.md R11). -/
def intToBytes (v : Nat) : Nat → Bytes
  | 0 => []
  | len + 1 => intToBytes (v / 256) len ++ [BitVec.ofNat 8 v]

/-- `bitlen(v)`: the position of the highest set bit plus one, 0 for 0 (00_scope.md R12). -/
def bitlen (v : Nat) : Nat := if v = 0 then 0 else v.log2 + 1

/-- `bytelen(v) = ceil(bitlen(v) / 8)`, the byte length of a natural number (00_scope.md R12). -/
def bytelen (v : Nat) : Nat := (bitlen v + 7) / 8

/-- `be32(c) = IntToBytes(c, 4)`, the MGF1 counter's bytes, most significant first (00_scope.md R13; 20_memory.md R61 b). -/
def be32 (c : Word) : Bytes := intToBytes c.toNat 4

/-- `zeros(L)` (00_scope.md R10). -/
def zeros (len : Nat) : Bytes := List.replicate len 0x00#8

/-- `a XOR b`, bytewise, for strings of equal length (00_scope.md R10). -/
def xorBytes (a b : Bytes) : Bytes := List.zipWith (fun x y => x ^^^ y) a b

/-- `b[lo .. lo+len-1]` (00_scope.md R10). -/
def slice (b : Bytes) (lo len : Nat) : Bytes := (b.drop lo).take len

end Sys2Proof.Machine
end

