-- ==== Sys2Proof/Machine/Ops.lean ====
section
/-! DEFINITION. The named operations every meaning is written with: register writes, the start, the failure and the
success of a command, the three ports, and the mask function that pad, unpad and MGF1 share. -/

namespace Sys2Proof.Machine

/-! ### A command's start and its two ends -/

/-- `invalidate(R) ; invalidate(OUT)`: every command, legal or not, starts so (10_state.md R41). -/
def State.beginCommand (s : State) : State := { s with r := none, out := none }

/-- Failure entry, the one shared operation: `fail CODE` writes `STATUS` and nothing else (60_exceptions.md R196).
There is no vector, no saved state, no change of mode, and so no return from it (R197). -/
def State.fail (s : State) (c : Failure) : State := { s with status := c.statusWord }

/-- `done`: the command ends with success (60_exceptions.md R195). -/
def State.done (s : State) : State := { s with status := statusOk }

/-- `CM <- ...`: all four fields at once (10_state.md R27; 41_crt_modpow.md R122). -/
def State.setCm (s : State) (m : CompositeModulus) : State := { s with cm := some m }

/-- `R <- v` (00_scope.md R15). -/
def State.setR (s : State) (v : Nat) : State := { s with r := some v }

/-- `OUT <- b` (00_scope.md R15). -/
def State.setOut (s : State) (b : Bytes) : State := { s with out := some b }

/-- An illegal word is a command: it invalidates `R` and `OUT` and fails `E_ILLEGAL_CMD`
(30_encoding.md R87; 60_exceptions.md R198). -/
def illegalCommand (s : State) : State := s.beginCommand.fail .illegalCmd

/-! ### The ports -/

/-- A value together with the port calls made to get it, in order (20_memory.md R73). -/
abbrev Traced (α : Type) := α × List PortCall

/-- Append port calls to the trace (20_memory.md R73). -/
def State.record (s : State) (calls : List PortCall) : State := { s with trace := s.trace ++ calls }

/-- One call on the `Hash` port (00_scope.md R5). -/
def hashPort (B : Build) (arg : Bytes) : Traced Bytes := (B.hash arg, [.hash arg])

/-- The answer the next call on the `Rand` port gets (00_scope.md R6). -/
def State.randAnswer (s : State) (B : Build) (count : Nat) : Bytes := B.rand s.draws count

/-- One call on the `Rand` port has been made: it is in the trace and the next answer is another draw (00_scope.md R6). -/
def State.drawn (s : State) (count : Nat) : State :=
  { s with trace := s.trace ++ [.rand count], draws := s.draws + 1 }

/-- One call on the `ModExp` port: the unique `r < modulus` with `r = base^exp (mod modulus)`, `base^0 = 1`, defined
for `modulus >= 2` (00_scope.md R7; 93_implementation_defined.md U12). -/
def modExpPort (base exp modulus : Nat) : Except Fault (Traced Nat) :=
  if modulus < 2 then .error .modulusBelowTwo
  else .ok (base ^ exp % modulus, [.modExp base exp modulus])

/-! ### The mask function -/

/-- The loop of 42_mgf1.md R141: while `acc` is shorter than `len`, hash `seed ‖ be32(ctr)` and append the digest; the
counter is 32 bits wide. `fuel` bounds the rounds; each round adds `HLEN >= 1` bytes, so `len` rounds are enough. -/
def mgf1Loop (B : Build) (seed : Bytes) (len : Nat) : (fuel : Nat) → (ctr : Word) → (acc : Bytes) → Traced Bytes
  | 0, _, acc => (acc, [])
  | fuel + 1, ctr, acc =>
    if acc.length < len then
      let digest := hashPort B (seed ++ be32 ctr)
      let rest := mgf1Loop B seed len fuel (ctr + 1#32) (acc ++ digest.1)
      (rest.1, digest.2 ++ rest.2)
    else (acc, [])

/-- `MGF1(seed, L)`: the counter and the accumulator start afresh at every invocation (42_mgf1.md R141, R148). -/
def mgf1 (B : Build) (seed : Bytes) (len : Nat) : Traced Bytes :=
  let acc := mgf1Loop B seed len len 0#32 []
  (acc.1.take len, acc.2)

/-- The label hash `Hash(label ‖ 0x00)` (43_oaep.md R157). -/
def labelHash (B : Build) (label : Bytes) : Traced Bytes := hashPort B (label ++ [0x00#8])

end Sys2Proof.Machine
end

