-- ==== Sys2Proof/Machine/CompositeModulus.lean ====
section
/-! DEFINITION. The CompositeModulus family: CM_LOAD and CRT_MODPOW (41_crt_modpow.md). -/

namespace Sys2Proof.Machine

/-- `CM_LOAD` (41_crt_modpow.md R121): presence, then positivity; nothing else is checked (R123). -/
def execCmLoad (s : State) : Result :=
  let s := s.beginCommand
  match s.n, s.p, s.q, s.gf with
  | some n, some p, some q, some gf =>
    if n = 0 ∨ p = 0 ∨ q = 0 ∨ gf = 0 then .next (s.fail .cmNonpositive)
    else .next (s.setCm { n := n, p := p, q := q, gf := gf }).done
  | _, _, _, _ => .next (s.fail .missingOperand)

/-- Garner's recombination: `h = (((a - b) mod p) * gf) mod p`, result `h*q + b`, over the integers with the
non-negative `mod` (41_crt_modpow.md R129; 00_scope.md R14). -/
def garner (p q gf a b : Nat) : Nat :=
  let h := (((a : Int) - (b : Int)) % (p : Int) * (gf : Int) % (p : Int)).toNat
  h * q + b

/-- Steps 1 to 3 of `CRT_MODPOW` (41_crt_modpow.md R126, R127, R129): reduce the exponent, call `ModExp` for `p` and then
for `q`, recombine. `CM.n` takes no part (R131). -/
def crtPower (m : CompositeModulus) (x exp : Nat) : Except Fault (Traced Nat) :=
  match modExpPort x (exp % (m.p - 1)) m.p with
  | .error f => .error f
  | .ok a =>
    match modExpPort x (exp % (m.q - 1)) m.q with
    | .error f => .error f
    | .ok b => .ok (garner m.p m.q m.gf a.1 b.1, a.2 ++ b.2)

/-- `CRT_MODPOW` (41_crt_modpow.md R126): presence, then `E_MOD_ZERO` for `p - 1 = 0` or `q - 1 = 0` (R128), then the
power. No range check on `x` (R134), no `Rand` (R135). -/
def execCrtModpow (s : State) : Result :=
  let s := s.beginCommand
  match s.cm, s.x, s.e with
  | some m, some x, some exp =>
    if m.p = 1 ∨ m.q = 1 then .next (s.fail .modZero)
    else
      match crtPower m x exp with
      | .error f => .fault f
      | .ok v => .next ((s.record v.2).setR v.1).done
  | _, _, _ => .next (s.fail .missingOperand)

end Sys2Proof.Machine
end

