-- ==== Sys2Proof/Machine/Mgf1.lean ====
section
/-! DEFINITION. The MGF1 command (42_mgf1.md R145 to R147). The function itself is in Ops, shared with pad and unpad. -/

namespace Sys2Proof.Machine

/-- `MGF1 len` in build `B` (42_mgf1.md R145): presence, then `E_LEN_RANGE` (R146), then the mask of `IN`. -/
def mgf1Command (B : Build) (len : Nat) (s : State) : Result :=
  let s := s.beginCommand
  match s.inp with
  | some seed =>
    if len > B.cap then .next (s.fail .lenRange)
    else
      let mask := mgf1 B seed len
      .next ((s.record mask.2).setOut mask.1).done
  | none => .next (s.fail .missingOperand)

/-- `MGF1 len`. -/
def execMgf1 (len : Nat) (s : State) : Result := mgf1Command Config.build len s

end Sys2Proof.Machine
end

