-- ==== Sys2Proof/Machine/Oaep.lean ====
section
/-! DEFINITION. The OAEP family: OAEP_PAD and OAEP_UNPAD (43_oaep.md). -/

namespace Sys2Proof.Machine

/-! ### Pad -/

/-- The message is too long for a modulus of `k` bytes: `len(M) > k - 2*HLEN - 2` over the integers (43_oaep.md R158). -/
def msgTooLong (B : Build) (k : Nat) (m : Bytes) : Bool :=
  decide ((m.length : Int) > (k : Int) - 2 * (B.hlen : Int) - 2)

/-- `DB = lHash ‖ PS ‖ 0x01 ‖ message` with `len(PS) = k - len(M) - 2*HLEN - 2` (43_oaep.md R155, R159). -/
def dataBlock (B : Build) (k : Nat) (lHash m : Bytes) : Bytes :=
  lHash ++ zeros (k - m.length - 2 * B.hlen - 2) ++ [0x01#8] ++ m

/-- Steps 7 to 9: mask DB with the seed's mask, the seed with the masked DB's, and join (43_oaep.md R161). -/
def oaepMask (B : Build) (seed db : Bytes) : Traced Bytes :=
  let dbMask := mgf1 B seed db.length
  let maskedDB := xorBytes db dbMask.1
  let seedMask := mgf1 B maskedDB B.hlen
  let maskedSeed := xorBytes seed seedMask.1
  ([0x00#8] ++ maskedSeed ++ maskedDB, dbMask.2 ++ seedMask.2)

/-- `OAEP_PAD` in build `B` (43_oaep.md R156). The label hash is called before the draw, the draw before the masks. -/
def oaepPadCommand (B : Build) (s : State) : Result :=
  let s := s.beginCommand
  match s.n, s.inp, s.lbl with
  | some n, some m, some label =>
    let k := bytelen n
    if msgTooLong B k m then .next (s.fail .msgTooLong)
    else
      let lHash := labelHash B label
      let db := dataBlock B k lHash.1 m
      let s := s.record lHash.2
      let seed := s.randAnswer B B.hlen
      let s := s.drawn B.hlen
      let em := oaepMask B seed db
      .next ((s.record em.2).setOut em.1).done
  | _, _, _ => .next (s.fail .missingOperand)

/-- `OAEP_PAD`. -/
def execOaepPad (s : State) : Result := oaepPadCommand Config.build s

/-! ### Unpad -/

/-- Undo steps 9 to 7: split EM, recover the seed, then DB (43_oaep.md R155, R174). Answers `(seed, DB)`. -/
def oaepUnmask (B : Build) (em : Bytes) : Traced (Bytes × Bytes) :=
  let maskedSeed := slice em 1 B.hlen
  let maskedDB := slice em (B.hlen + 1) (em.length - B.hlen - 1)
  let seedMask := mgf1 B maskedDB B.hlen
  let seed := xorBytes maskedSeed seedMask.1
  let dbMask := mgf1 B seed (em.length - B.hlen - 1)
  ((seed, xorBytes maskedDB dbMask.1), seedMask.2 ++ dbMask.2)

/-- The scan from DB index `HLEN`: skip bytes equal to 0x00 (43_oaep.md R176). What is left starts at the first non-zero
byte, and is empty if the end of DB is reached. -/
def scanPadding (B : Build) (db : Bytes) : Bytes := (db.drop B.hlen).dropWhile (fun b => b == 0x00#8)

/-- Checks 3 and 4 and the message they let through (43_oaep.md R176, R177, R179). -/
def findMessage (B : Build) (db : Bytes) : Except Failure Bytes :=
  match scanPadding B db with
  | [] => .error .padNoMarker
  | marker :: m =>
    if marker ≠ 0x01#8 then .error .padNoMarker
    else if m = [] then .error .padEmptyMsg
    else .ok m

/-- `OAEP_UNPAD` in build `B` (43_oaep.md R170): presence, then the five checks in their fixed order (R180). -/
def oaepUnpadCommand (B : Build) (s : State) : Result :=
  let s := s.beginCommand
  match s.inp, s.lbl with
  | some em, some label =>
    if em.length < 2 * B.hlen + 2 then .next (s.fail .padShort)
    else if em.head? ≠ some 0x00#8 then .next (s.fail .padLead)
    else
      let block := oaepUnmask B em
      let db := block.1.2
      let s := s.record block.2
      match findMessage B db with
      | .error c => .next (s.fail c)
      | .ok m =>
        let lHash := labelHash B label
        let s := s.record lHash.2
        if db.take B.hlen ≠ lHash.1 then .next (s.fail .padLabel)
        else .next (s.setOut m).done
  | _, _ => .next (s.fail .missingOperand)

/-- `OAEP_UNPAD`. -/
def execOaepUnpad (s : State) : Result := oaepUnpadCommand Config.build s

end Sys2Proof.Machine
end

