-- ==== Sys2Proof/Syntax.lean ====
section
/-! DEFINITION. The five commands of OCB, one constructor per row of spec/opcode_table.json (30_encoding.md R86). -/

namespace Sys2Proof

/-- The commands. Every operand but MGF1's length is implicit (30_encoding.md R85). -/
inductive Instr where
  /-- `CM_LOAD`: latch a CompositeModulus (41_crt_modpow.md R121). -/
  | cmLoad
  /-- `CRT_MODPOW`: CRT modular exponentiation (41_crt_modpow.md R126). -/
  | crtModpow
  /-- `MGF1 len`: the mask function; `len` is `IMM24`, an output length in bytes (42_mgf1.md R145; 30_encoding.md R84). -/
  | mgf1 (len : Nat)
  /-- `OAEP_PAD` (43_oaep.md R156). -/
  | oaepPad
  /-- `OAEP_UNPAD` (43_oaep.md R170). -/
  | oaepUnpad
  deriving DecidableEq, Repr

end Sys2Proof
end

