-- ==== Sys2Proof/Machine/Dispatch.lean ====
section
/-! DEFINITION. What each command does: one arm per constructor of Instr (30_encoding.md R86). -/

namespace Sys2Proof.Machine

def exec (i : Instr) (s : State) : Host.Outcome State Fault Refusal :=
  match i with
  | .cmLoad => Sys2Proof.Machine.execCmLoad s
  | .crtModpow => Sys2Proof.Machine.execCrtModpow s
  | .mgf1 len => Sys2Proof.Machine.execMgf1 len s
  | .oaepPad => Sys2Proof.Machine.execOaepPad s
  | .oaepUnpad => Sys2Proof.Machine.execOaepUnpad s

end Sys2Proof.Machine
end

