-- ==== Sys2Proof/WellFormed.lean ====
section
/-! DEFINITION. Which commands a command word can carry: MGF1's length fits the 24-bit immediate (30_encoding.md R83, R84). -/

namespace Sys2Proof

/-- The command has an encoding: an `MGF1` length is `0` to `2^24-1` (30_encoding.md R83); the others carry no operand. -/
def Instr.wellFormed : Instr → Bool
  | .cmLoad => true
  | .crtModpow => true
  | .mgf1 len => decide (len < 2 ^ 24)
  | .oaepPad => true
  | .oaepUnpad => true

/-- `Instr.wellFormed` as a proposition. -/
abbrev Instr.WellFormed (i : Instr) : Prop := i.wellFormed = true

end Sys2Proof
end

