-- ==== Sys2Proof/Decode.lean ====
section
/-! DEFINITION. The command word: its two fields, the total decoder, and the encoder (30_encoding.md R80, R83, R86, R87, R91). -/

namespace Sys2Proof

/-- Why a word is illegal: the two clauses of 30_encoding.md R87. Both fail alike, with `E_ILLEGAL_CMD`. -/
inductive IllegalWord where
  /-- `OPC` is 0x00 or 0x06 to 0xFF. -/
  | unassignedOpcode
  /-- A format C0 opcode with `IMM24 != 0`. -/
  | immediateNotZero
  deriving DecidableEq, Repr

/-- Field `OPC = w[7:0]` (30_encoding.md R80). -/
def opc (w : Word) : Nat := (w.extractLsb' 0 8).toNat

/-- Field `IMM24 = w[31:8]`, unsigned (30_encoding.md R80, R84). -/
def imm24 (w : Word) : Nat := (w.extractLsb' 8 24).toNat

/-- Format C0: `IMM24` must be 0 (30_encoding.md R83, R87). -/
def decodeC0 (i : Instr) (imm : Nat) : Except IllegalWord Instr :=
  if imm = 0 then .ok i else .error .immediateNotZero

/-- The total decoder (30_encoding.md R91). -/
def decode (w : Word) : Except IllegalWord Instr :=
  match opc w with
  | 0x01 => decodeC0 .cmLoad (imm24 w)
  | 0x02 => decodeC0 .crtModpow (imm24 w)
  | 0x03 => .ok (.mgf1 (imm24 w))
  | 0x04 => decodeC0 .oaepPad (imm24 w)
  | 0x05 => decodeC0 .oaepUnpad (imm24 w)
  | _ => .error .unassignedOpcode

/-- The word of a command (30_encoding.md R86, R91). -/
def encode : Instr → Word
  | .cmLoad => 0x00000001#32
  | .crtModpow => 0x00000002#32
  | .mgf1 len => BitVec.ofNat 32 (len * 256 + 3)
  | .oaepPad => 0x00000004#32
  | .oaepUnpad => 0x00000005#32

/-- The decoder on the bits `w` of a table row `nbits` wide: a command is one 32-bit word whose bit 0 is the
least significant (30_encoding.md R80), and bits above `nbits` are 0. -/
def decodeTableWord (nbits w : Nat) : Option Instr :=
  match decode (BitVec.ofNat 32 (w % 2 ^ nbits)) with
  | .ok i => some i
  | .error _ => none

end Sys2Proof
end

