-- ==== Sys2Proof/Machine/Transfers.lean ====
section
/-! DEFINITION. The host port: register ids, `WR`, `RD`, the reset input, and one transaction (40_host_transfers.md;
10_state.md R37; 70_reset_and_hazards.md R220). -/

namespace Sys2Proof.Machine

/-- The integer operand registers (10_state.md R21). -/
inductive IntOperand where
  | n
  | p
  | q
  | gf
  | x
  | e
  deriving DecidableEq, Repr

/-- The byte-buffer operand registers (10_state.md R23). -/
inductive BufOperand where
  | inp
  | lbl
  deriving DecidableEq, Repr

/-- The 18 registers of the register-id space (10_state.md R37). -/
inductive Reg where
  | intOperand (i : IntOperand)
  | r
  | bufOperand (b : BufOperand)
  | out
  | cmd
  | status
  | valid
  | hlenr
  | capr
  | inlen
  | lbllen
  | outlen
  deriving DecidableEq, Repr

/-- The id of each register (10_state.md R37). -/
def Reg.id : Reg → Nat
  | .intOperand .n => 0x00
  | .intOperand .p => 0x01
  | .intOperand .q => 0x02
  | .intOperand .gf => 0x03
  | .intOperand .x => 0x04
  | .intOperand .e => 0x05
  | .r => 0x06
  | .bufOperand .inp => 0x08
  | .bufOperand .lbl => 0x09
  | .out => 0x0A
  | .cmd => 0x10
  | .status => 0x11
  | .valid => 0x12
  | .hlenr => 0x13
  | .capr => 0x14
  | .inlen => 0x18
  | .lbllen => 0x19
  | .outlen => 0x1A

/-- The register an id names; every other id names none (10_state.md R37). -/
def Reg.ofId : Nat → Option Reg
  | 0x00 => some (.intOperand .n)
  | 0x01 => some (.intOperand .p)
  | 0x02 => some (.intOperand .q)
  | 0x03 => some (.intOperand .gf)
  | 0x04 => some (.intOperand .x)
  | 0x05 => some (.intOperand .e)
  | 0x06 => some .r
  | 0x08 => some (.bufOperand .inp)
  | 0x09 => some (.bufOperand .lbl)
  | 0x0A => some .out
  | 0x10 => some .cmd
  | 0x11 => some .status
  | 0x12 => some .valid
  | 0x13 => some .hlenr
  | 0x14 => some .capr
  | 0x18 => some .inlen
  | 0x19 => some .lbllen
  | 0x1A => some .outlen
  | _ => none

/-- An integer operand register's content. -/
def State.readInt (s : State) : IntOperand → Option Nat
  | .n => s.n
  | .p => s.p
  | .q => s.q
  | .gf => s.gf
  | .x => s.x
  | .e => s.e

/-- `REG <- v` for an integer operand register (00_scope.md R15). -/
def State.writeInt (s : State) (i : IntOperand) (v : Nat) : State :=
  match i with
  | .n => { s with n := some v }
  | .p => { s with p := some v }
  | .q => { s with q := some v }
  | .gf => { s with gf := some v }
  | .x => { s with x := some v }
  | .e => { s with e := some v }

/-- A byte-buffer operand register's content. -/
def State.readBuf (s : State) : BufOperand → Option Bytes
  | .inp => s.inp
  | .lbl => s.lbl

/-- `BUF <- b`: the whole string and its length are replaced (40_host_transfers.md R102). -/
def State.writeBuf (s : State) (i : BufOperand) (b : Bytes) : State :=
  match i with
  | .inp => { s with inp := some b }
  | .lbl => { s with lbl := some b }

/-- The port answers the host (40_host_transfers.md R100). -/
def State.respond (s : State) (a : Response) : State := { s with responses := s.responses ++ [a] }

/-- The host's transaction leaves the queue of what is yet to be presented (20_memory.md R68 b). -/
def State.take (s : State) (rest : List Transaction) : State := { s with pending := rest }

/-- `WR` of a register other than `CMD` (40_host_transfers.md R101, R102), or its refusal (R108 a, d, f). A payload of the
other kind is not converted (R109; log entry 7). -/
def hostWrite (B : Build) (reg : Reg) (payload : Payload) (s : State) : State :=
  match reg, payload with
  | .intOperand i, .bytes b =>
    if b.length > B.cap then s.respond .error else (s.writeInt i (bytesToInt b)).respond .okay
  | .bufOperand i, .bytes b =>
    if b.length > B.cap then s.respond .error else (s.writeBuf i b).respond .okay
  | _, _ => s.respond .error

/-- What `RD` of a register returns; `none` is a refusal (40_host_transfers.md R104 to R106, R108 b, e). -/
def hostRead (B : Build) (s : State) : Reg → Option Payload
  | .intOperand i => (s.readInt i).map (fun v => .bytes (intToBytes v B.cap))
  | .r => s.r.map (fun v => .bytes (intToBytes v (2 * B.cap)))
  | .bufOperand i => (s.readBuf i).map .bytes
  | .out => s.out.map .bytes
  | .cmd => none
  | .status => some (.word s.status)
  | .valid => some (.word s.validWord)
  | .hlenr => some (.word (hlenView B))
  | .capr => some (.word (capView B))
  | .inlen => some (.word (lengthView s.inp))
  | .lbllen => some (.word (lengthView s.lbl))
  | .outlen => some (.word (lengthView s.out))

/-- The answer to `RD id` (40_host_transfers.md R104 to R106, R108 b, c, e). -/
def readResponse (B : Build) (s : State) (id : Nat) : Response :=
  match (Reg.ofId id).bind (hostRead B s) with
  | some payload => .data payload
  | none => .error

/-- The reset input between two transactions puts OCB into the reset state (70_reset_and_hazards.md R220). The host's
program, the responses given, the trace and the draws are not OCB's and stand (log entry 10). -/
def State.resetInput (s : State) : State :=
  { State.reset with pending := s.pending, responses := s.responses, trace := s.trace, draws := s.draws }

/-- A command word runs: the command it decodes to, or the illegal command (30_encoding.md R81, R91). -/
def runWord (run : Instr → State → Result) (w : Word) (s : State) : Result :=
  match decode w with
  | .ok i => run i s
  | .error _ => .next (illegalCommand s)

/-- One transaction taken from the port (40_host_transfers.md R100 to R108), with `run` what a command does. `WR CMD` with
a 32-bit word is never refused, whatever becomes of the command (R103; 60_exceptions.md R196). -/
def transact (B : Build) (run : Instr → State → Result) (t : Transaction) (s : State) : Result :=
  match t with
  | .reset => .next s.resetInput
  | .rd id => .next (s.respond (readResponse B s id))
  | .wr id payload =>
    match Reg.ofId id, payload with
    | some .cmd, .word w => runWord run w (s.respond .okay)
    | some reg, payload => .next (hostWrite B reg payload s)
    | none, _ => .next (s.respond .error)

/-- The next transaction of the queue is taken; with none OCB is idle with its state held (60_exceptions.md R213). -/
def runPort (B : Build) (run : Instr → State → Result) (s : State) : Result :=
  match s.pending with
  | [] => .next s
  | t :: rest => transact B run t (s.take rest)

/-- The host's next transaction is `WR CMD` of the word `w`, its bits above `nbits` zero (30_encoding.md R80, R103). -/
def State.presentCommand (s : State) (nbits w : Nat) : State :=
  { s with pending := .wr Reg.cmd.id (.word (BitVec.ofNat 32 (w % 2 ^ nbits))) :: s.pending }

/-- What a command does in build `B`. `exec` is this at `Config.build`; the vectors of 95_test_vectors.md name a build of
their own. -/
def commandIn (B : Build) (i : Instr) (s : State) : Result :=
  match i with
  | .cmLoad => execCmLoad s
  | .crtModpow => execCrtModpow s
  | .mgf1 len => mgf1Command B len s
  | .oaepPad => oaepPadCommand B s
  | .oaepUnpad => oaepUnpadCommand B s

end Sys2Proof.Machine
end

