-- ==== Sys2Proof/Machine/Step.lean ====
section
/-! DEFINITION. One step of the machine: the host's next transaction, a whole command inside its `WR CMD`
(20_memory.md R64, R68; 30_encoding.md R81). -/

namespace Sys2Proof.Machine

/-- One transaction, or an idle step when the host presents none. -/
def step (s : State) : Host.Outcome State Fault Refusal := runPort Config.build exec s

/-- `s` with `WR CMD` of the word `w` as the transaction the next step takes. -/
def State.withFetchWord (s : State) (nbits w : Nat) : State := s.presentCommand nbits w

end Sys2Proof.Machine
end

