-- ==== Sys2Proof/Safety.lean ====
section
/-! DEFINITION. What claims are stated with: the invariant of every run, the refusals of the port, and which registers a
command reads (10_state.md R21 to R31, R25; 40_host_transfers.md R108). -/

namespace Sys2Proof.Machine

/-- Every failure (60_exceptions.md R192). -/
def Failure.all : List Failure :=
  [.illegalCmd, .missingOperand, .lenRange, .msgTooLong, .cmNonpositive, .modZero, .padShort, .padLead, .padNoMarker,
   .padEmptyMsg, .padLabel]

/-- The `STATUS` words the rules produce (60_exceptions.md R192, "`STATUS` word" column). -/
def legalStatus : List Word :=
  [0x00000000#32, 0x00000001#32, 0x00000112#32, 0x00000212#32, 0x00000312#32, 0x00000412#32, 0x00000512#32, 0x00000612#32,
   0x00001032#32, 0x00001132#32, 0x00001232#32, 0x00001332#32, 0x00001432#32]

/-- The fields of a valid `CM`: each at least 1 and below `256^CAP` (10_state.md R27). -/
structure CompositeModulus.InRange (B : Build) (m : CompositeModulus) : Prop where
  n_pos : 1 ≤ m.n
  p_pos : 1 ≤ m.p
  q_pos : 1 ≤ m.q
  gf_pos : 1 ≤ m.gf
  n_lt : m.n < 256 ^ B.cap
  p_lt : m.p < 256 ^ B.cap
  q_lt : m.q < 256 ^ B.cap
  gf_lt : m.gf < 256 ^ B.cap

/-- What holds of OCB between transactions, in build `B`. -/
structure State.Inv (B : Build) (s : State) : Prop where
  /-- Integer operand registers hold natural numbers below `256^CAP` (10_state.md R21). -/
  operands : ∀ i v, s.readInt i = some v → v < 256 ^ B.cap
  /-- `R` holds a natural number below `256^(2*CAP)` (10_state.md R22). -/
  result : ∀ v, s.r = some v → v < 256 ^ (2 * B.cap)
  /-- `IN` and `LBL` hold at most `CAP` bytes (10_state.md R23). -/
  buffers : ∀ i b, s.readBuf i = some b → b.length ≤ B.cap
  /-- `OUT` holds at most `CAP` bytes (10_state.md R24). -/
  output : ∀ b, s.out = some b → b.length ≤ B.cap
  /-- `CM`'s four fields are positive and fit (10_state.md R27). -/
  modulus : ∀ m, s.cm = some m → m.InRange B
  /-- `LBL` is always valid (43_oaep.md R163 e). -/
  label : s.lbl ≠ none
  /-- `STATUS` is a word the rules produce (10_state.md R29; 60_exceptions.md R192). -/
  status : s.status ∈ legalStatus
  /-- A result register is valid only after a success (10_state.md R30; 60_exceptions.md R196). -/
  honest : s.r ≠ none ∨ s.out ≠ none → s.status = 0x00000001#32
  /-- `R` and `OUT` are never valid together: each command invalidates both and writes at most one (10_state.md R25, R41). -/
  single : s.r = none ∨ s.out = none

/-- The registers the host can only read (40_host_transfers.md R108 a): `R OUT STATUS VALID HLENR CAPR INLEN LBLLEN OUTLEN`. -/
def readOnlyIds : List Nat := [0x06, 0x0A, 0x11, 0x12, 0x13, 0x14, 0x18, 0x19, 0x1A]

/-- The integer operand registers' ids `N P Q GF X E` and the buffers' `IN LBL` (10_state.md R37). -/
def operandIds : List Nat := [0x00, 0x01, 0x02, 0x03, 0x04, 0x05, 0x08, 0x09]

/-- The ids that name a register (10_state.md R37). -/
def namedIds : List Nat := operandIds ++ readOnlyIds ++ [0x10]

/-- `id` is an operand or result register whose valid bit is 0 (10_state.md R34, R37). -/
def State.HoldsNothing (s : State) (id : Nat) : Prop :=
  (id = 0x00 ∧ s.n = none) ∨ (id = 0x01 ∧ s.p = none) ∨ (id = 0x02 ∧ s.q = none) ∨ (id = 0x03 ∧ s.gf = none) ∨
    (id = 0x04 ∧ s.x = none) ∨ (id = 0x05 ∧ s.e = none) ∨ (id = 0x06 ∧ s.r = none) ∨ (id = 0x08 ∧ s.inp = none) ∨
    (id = 0x09 ∧ s.lbl = none) ∨ (id = 0x0A ∧ s.out = none)

/-- The refusals of 40_host_transfers.md R108, cases (a) to (f). -/
def RefusedCase (B : Build) (s : State) : Transaction → Prop
  | .wr id payload =>
    id ∈ readOnlyIds ∨ id ∉ namedIds ∨ (id ∈ operandIds ∧ ∃ b, payload = .bytes b ∧ B.cap < b.length) ∨
      (id = 0x10 ∧ ∀ w, payload ≠ .word w)
  | .rd id => id = 0x10 ∨ id ∉ namedIds ∨ s.HoldsNothing id
  | .reset => False

/-- The registers the command reads hold the same in both states, and for `OAEP_PAD` the same draw is next (10_state.md R25). -/
def sameOperands (s s' : State) : Instr → Prop
  | .cmLoad => s.n = s'.n ∧ s.p = s'.p ∧ s.q = s'.q ∧ s.gf = s'.gf
  | .crtModpow => s.cm = s'.cm ∧ s.x = s'.x ∧ s.e = s'.e
  | .mgf1 _ => s.inp = s'.inp
  | .oaepPad => s.n = s'.n ∧ s.inp = s'.inp ∧ s.lbl = s'.lbl ∧ s.draws = s'.draws
  | .oaepUnpad => s.inp = s'.inp ∧ s.lbl = s'.lbl

/-- A run is clean when the port has refused no transaction of the host: a host program containing one is ill-formed
(40_host_transfers.md R108; 93_implementation_defined.md U13). -/
def State.Clean (s : State) : Prop := Response.error ∉ s.responses

/-- `ceil(len / HLEN)`, the number of hashes a mask of `len` bytes takes (42_mgf1.md R142). -/
def hashCount (B : Build) (len : Nat) : Nat := (len + B.hlen - 1) / B.hlen

/-- The `Hash` arguments of `MGF1(seed, len)` in order (42_mgf1.md R142), the counter 32 bits wide (R143). -/
def maskCalls (B : Build) (seed : Bytes) (len : Nat) : List PortCall :=
  (List.range (hashCount B len)).map (fun i => .hash (seed ++ be32 (BitVec.ofNat 32 i)))

/-- The DB that unmasking recovers from EM, and the mask calls made for it, written out from 43_oaep.md R170. -/
def recovered (em : Bytes) : Bytes × List PortCall :=
  let maskedSeed := (em.drop 1).take Config.build.hlen
  let maskedDB := em.drop (Config.build.hlen + 1)
  let seedMask := mgf1 Config.build maskedDB Config.build.hlen
  let seed := xorBytes maskedSeed seedMask.1
  let dbMask := mgf1 Config.build seed (em.length - Config.build.hlen - 1)
  (xorBytes maskedDB dbMask.1, seedMask.2 ++ dbMask.2)

end Sys2Proof.Machine
end

