-- ==== Sys2Proof/Certificates/Slice0/Obligations.lean ====
section
/-! DEFINITION. The statements for the provers, each from a rule of spec/. The build is `Config.build`, whose parameters
are free, so each statement holds for every HLEN, CAP, Hash and every draw of Rand. -/

open Sys2Proof Sys2Proof.Machine

/-! ### Encoding -/

/-- A well-formed command's word decodes to the command, the length of MGF1 included: 30_encoding.md R91 "Encoding is its
inverse on legal commands", which the spec derives from R86 and R87. -/
def Obligations.DecodeOfEncodeIsTheCommand : Prop :=
  ∀ i : Instr, i.WellFormed → decode (encode i) = .ok i

/-- 30_encoding.md R91, which the spec derives from R86 and R87: the total decode function, case by case, and encode its
inverse on legal commands. -/
def Obligations.DecodeIsTotalAndEncodeItsInverse : Prop :=
  (∀ w : Word,
    (w = 0x00000001#32 → decode w = .ok .cmLoad) ∧
    (w = 0x00000002#32 → decode w = .ok .crtModpow) ∧
    (w.toNat % 256 = 0x03 → decode w = .ok (.mgf1 (w.toNat / 256))) ∧
    (w = 0x00000004#32 → decode w = .ok .oaepPad) ∧
    (w = 0x00000005#32 → decode w = .ok .oaepUnpad) ∧
    (w ≠ 0x00000001#32 → w ≠ 0x00000002#32 → w.toNat % 256 ≠ 0x03 → w ≠ 0x00000004#32 → w ≠ 0x00000005#32 →
      ∃ reason, decode w = .error reason) ∧
    ∀ i, decode w = .ok i ↔ i.WellFormed ∧ encode i = w) ∧
  ∀ len, len < 2 ^ 24 → (encode (.mgf1 len)).toNat = len * 256 + 3

/-- 30_encoding.md R86, whole: a word selects a row iff `w AND mask = match`, and the row's word is the table's. -/
def Obligations.WordSelectsRowByMaskAndMatch : Prop :=
  (∀ w : Word,
    (decode w = .ok .cmLoad ↔ w &&& 0xFFFFFFFF#32 = 0x00000001#32) ∧
    (decode w = .ok .crtModpow ↔ w &&& 0xFFFFFFFF#32 = 0x00000002#32) ∧
    ((∃ len, decode w = .ok (.mgf1 len)) ↔ w &&& 0x000000FF#32 = 0x00000003#32) ∧
    (decode w = .ok .oaepPad ↔ w &&& 0xFFFFFFFF#32 = 0x00000004#32) ∧
    (decode w = .ok .oaepUnpad ↔ w &&& 0xFFFFFFFF#32 = 0x00000005#32)) ∧
  encode .cmLoad = 0x00000001#32 ∧ encode .crtModpow = 0x00000002#32 ∧ encode .oaepPad = 0x00000004#32 ∧
  encode .oaepUnpad = 0x00000005#32 ∧
  ∀ len, len < 2 ^ 24 → encode (.mgf1 len) = (BitVec.ofNat 32 len <<< 8) ||| 0x03#32

/-- 30_encoding.md R87 and 60_exceptions.md R198: the illegal words are exactly those listed, and `WR CMD` of one
invalidates R and OUT, fails E_ILLEGAL_CMD, calls no port and changes nothing else. -/
def Obligations.IllegalWordsFailAndChangeNothingElse : Prop :=
  ∀ w : Word,
    ((∃ reason, decode w = .error reason) ↔
      w.toNat % 256 = 0x00 ∨ 0x06 ≤ w.toNat % 256 ∨
        (w.toNat % 256 ∈ [0x01, 0x02, 0x04, 0x05] ∧ w.toNat / 256 ≠ 0)) ∧
    ∀ (s : State) (rest : List Transaction) (reason : IllegalWord),
      s.pending = .wr 0x10 (.word w) :: rest → decode w = .error reason →
        step s = .next { s with
          r := none, out := none, status := 0x00000112#32, pending := rest, responses := s.responses ++ [.okay] }

/-- 95_test_vectors.md V01 to V06: the words listed there decode as listed there. -/
def Obligations.VectorWordsDecodeAsListed : Prop :=
  decode 0x00000001#32 = .ok .cmLoad ∧ decode 0x00000002#32 = .ok .crtModpow ∧ decode 0x00000004#32 = .ok .oaepPad ∧
  decode 0x00000005#32 = .ok .oaepUnpad ∧ decode 0x00000503#32 = .ok (.mgf1 5) ∧ decode 0x00000003#32 = .ok (.mgf1 0) ∧
  decode 0xFFFFFF03#32 = .ok (.mgf1 16777215) ∧
  ∀ w ∈ [0x00000000#32, 0x00000006#32, 0x000000FF#32, 0x00000101#32, 0x80000004#32], ∃ reason, decode w = .error reason

/-! ### The port and the step -/

/-- 40_host_transfers.md R103, 30_encoding.md R81: `WR CMD` of a word that decodes to a command runs that command within
the step; around it the transaction leaves the queue and the port answers OKAY. -/
def Obligations.StepRunsTheDecodedCommand : Prop :=
  ∀ (s : State) (w : Word) (rest : List Transaction) (i : Instr),
    s.pending = .wr 0x10 (.word w) :: rest → decode w = .ok i →
      step s = exec i { s with pending := rest, responses := s.responses ++ [.okay] }

/-- 60_exceptions.md R213 and log entry 3 (the model's own idle step): with no transaction the state is held. -/
def Obligations.IdleStepHoldsTheState : Prop :=
  ∀ s : State, s.pending = [] → step s = .next s

/-- 10_state.md R37, the id and name columns: 18 registers, and every other id names none. -/
def Obligations.RegisterIdsAreTheTable : Prop :=
  Reg.ofId 0x00 = some (.intOperand .n) ∧ Reg.ofId 0x01 = some (.intOperand .p) ∧ Reg.ofId 0x02 = some (.intOperand .q) ∧
  Reg.ofId 0x03 = some (.intOperand .gf) ∧ Reg.ofId 0x04 = some (.intOperand .x) ∧ Reg.ofId 0x05 = some (.intOperand .e) ∧
  Reg.ofId 0x06 = some .r ∧ Reg.ofId 0x08 = some (.bufOperand .inp) ∧ Reg.ofId 0x09 = some (.bufOperand .lbl) ∧
  Reg.ofId 0x0A = some .out ∧ Reg.ofId 0x10 = some .cmd ∧ Reg.ofId 0x11 = some .status ∧ Reg.ofId 0x12 = some .valid ∧
  Reg.ofId 0x13 = some .hlenr ∧ Reg.ofId 0x14 = some .capr ∧ Reg.ofId 0x18 = some .inlen ∧
  Reg.ofId 0x19 = some .lbllen ∧ Reg.ofId 0x1A = some .outlen ∧
  ∀ id, (id = 0x07 ∨ (0x0B ≤ id ∧ id ≤ 0x0F) ∨ (0x15 ≤ id ∧ id ≤ 0x17) ∨ 0x1B ≤ id) → Reg.ofId id = none

/-- 40_host_transfers.md R101, whole: the register holds `BytesToInt(payload)` and is valid, every other register,
`CM`, `R`, `OUT` and `STATUS` stand, the answer is OKAY; a payload longer than CAP is refused with no change. -/
def Obligations.WriteIntegerOperandReplacesItsValue : Prop :=
  ∀ (s : State) (rest : List Transaction) (i : IntOperand) (b : Bytes),
    s.pending = .wr (Reg.intOperand i).id (.bytes b) :: rest →
      (b.length ≤ Config.build.cap → ∃ t, step s = .next t ∧ t.readInt i = some (bytesToInt b) ∧
        (∀ j, j ≠ i → t.readInt j = s.readInt j) ∧
        t = { s with
          n := t.n, p := t.p, q := t.q, gf := t.gf, x := t.x, e := t.e, pending := rest,
          responses := s.responses ++ [.okay] }) ∧
      (Config.build.cap < b.length →
        step s = .next { s with pending := rest, responses := s.responses ++ [.error] })

/-- 40_host_transfers.md R102, whole: the buffer holds exactly the payload and is valid, all else stands; a payload longer
than CAP is refused with no change. -/
def Obligations.WriteBufferOperandReplacesItsString : Prop :=
  ∀ (s : State) (rest : List Transaction) (i : BufOperand) (b : Bytes),
    s.pending = .wr (Reg.bufOperand i).id (.bytes b) :: rest →
      (b.length ≤ Config.build.cap → ∃ t, step s = .next t ∧ t.readBuf i = some b ∧
        (∀ j, j ≠ i → t.readBuf j = s.readBuf j) ∧
        t = { s with inp := t.inp, lbl := t.lbl, pending := rest, responses := s.responses ++ [.okay] }) ∧
      (Config.build.cap < b.length →
        step s = .next { s with pending := rest, responses := s.responses ++ [.error] })

/-- 40_host_transfers.md R104: `RD` of an integer register returns its value at the register's full width, or is refused
when the register is invalid; no state changes. -/
def Obligations.ReadIntegerRegisterReturnsFullWidth : Prop :=
  ∀ (s : State) (rest : List Transaction),
    (∀ i, s.pending = .rd (Reg.intOperand i).id :: rest →
      (∀ v, s.readInt i = some v → step s = .next { s with
        pending := rest, responses := s.responses ++ [.data (.bytes (intToBytes v Config.build.cap))] }) ∧
      (s.readInt i = none → step s = .next { s with pending := rest, responses := s.responses ++ [.error] })) ∧
    (s.pending = .rd 0x06 :: rest →
      (∀ v, s.r = some v → step s = .next { s with
        pending := rest, responses := s.responses ++ [.data (.bytes (intToBytes v (2 * Config.build.cap)))] }) ∧
      (s.r = none → step s = .next { s with pending := rest, responses := s.responses ++ [.error] }))

/-- 40_host_transfers.md R105: `RD` of a byte buffer returns exactly its bytes, or is refused when it is invalid. -/
def Obligations.ReadBufferReturnsItsBytes : Prop :=
  ∀ (s : State) (rest : List Transaction) (id : Nat) (buf : Option Bytes),
    (id, buf) ∈ [(0x08, s.inp), (0x09, s.lbl), (0x0A, s.out)] → s.pending = .rd id :: rest →
      (∀ b, buf = some b → step s = .next { s with
        pending := rest, responses := s.responses ++ [.data (.bytes b)] }) ∧
      (buf = none → step s = .next { s with pending := rest, responses := s.responses ++ [.error] })

/-- 40_host_transfers.md R106 with 10_state.md R35, R36: `RD` of a control register is never refused and returns the
32-bit value defined for it. Of a digest length that does not fit 32 bits it says only what R35 does, that `HLENR` never
changes: `wide` is then some one word (log entry 17). -/
def Obligations.ReadControlRegisterReturnsItsWord : Prop :=
  ∃ wide : Word, ∀ (s : State) (rest : List Transaction) (id : Nat) (w : Word),
    (id, w) ∈ [(0x11, s.status), (0x12, s.validWord),
      (0x13, if Config.build.hlen < 2 ^ 32 then BitVec.ofNat 32 Config.build.hlen else wide),
      (0x14, BitVec.ofNat 32 Config.build.cap), (0x18, BitVec.ofNat 32 (s.inp.getD []).length),
      (0x19, BitVec.ofNat 32 (s.lbl.getD []).length), (0x1A, BitVec.ofNat 32 (s.out.getD []).length)] →
    s.pending = .rd id :: rest →
      step s = .next { s with pending := rest, responses := s.responses ++ [.data (.word w)] }

/-- 10_state.md R34, whole: each bit of `VALID`. -/
def Obligations.ValidViewShowsTheValidBits : Prop :=
  ∀ (s : State) (i : Nat), s.validWord.getLsbD i =
    if i = 0 then s.n.isSome else if i = 1 then s.p.isSome else if i = 2 then s.q.isSome else
    if i = 3 then s.gf.isSome else if i = 4 then s.x.isSome else if i = 5 then s.e.isSome else
    if i = 6 then s.r.isSome else if i = 8 then s.inp.isSome else if i = 9 then s.lbl.isSome else
    if i = 10 then s.out.isSome else if i = 16 then s.cm.isSome else false

/-- 40_host_transfers.md R108: a transaction in cases (a) to (f) is answered ERROR, changes no state and returns no data;
every other one is not refused. A write to an operand register carries a byte string, as R101 and R102 have it. -/
def Obligations.RefusalsAreExactlyTheListedCases : Prop :=
  ∀ (s : State) (t : Transaction) (rest : List Transaction),
    s.pending = t :: rest → t ≠ .reset → (∀ id w, t = .wr id (.word w) → id ∉ operandIds) →
      (RefusedCase Config.build s t →
        step s = .next { s with pending := rest, responses := s.responses ++ [.error] }) ∧
      (¬ RefusedCase Config.build s t → s.Inv Config.build →
        ∃ u a, step s = .next u ∧ a ≠ .error ∧ u.responses = s.responses ++ [a])

/-- Log entry 7, the model's choice from R109 ("Transfers never extend, truncate or convert"): a 32-bit word offered to an
operand register is refused. -/
def Obligations.WordToOperandRegisterIsRefused : Prop :=
  ∀ (s : State) (rest : List Transaction) (id : Nat) (w : Word),
    id ∈ operandIds → s.pending = .wr id (.word w) :: rest →
      step s = .next { s with pending := rest, responses := s.responses ++ [.error] }

/-- 40_host_transfers.md R101, R104, R109: what is written to an integer operand register is read back as the same
number, CAP bytes wide. -/
def Obligations.IntegerReadAfterWriteGivesTheValue : Prop :=
  ∀ (s : State) (rest : List Transaction) (i : IntOperand) (b : Bytes),
    s.pending = .wr (Reg.intOperand i).id (.bytes b) :: .rd (Reg.intOperand i).id :: rest →
    b.length ≤ Config.build.cap →
      ∃ t u c, step s = .next t ∧ step t = .next u ∧ u.responses = s.responses ++ [.okay, .data (.bytes c)] ∧
        c.length = Config.build.cap ∧ bytesToInt c = bytesToInt b

/-- 20_memory.md R65: a read has no side effect, and two reads in a row answer alike. -/
def Obligations.ReadsAreIdempotent : Prop :=
  ∀ (s : State) (rest : List Transaction) (id : Nat),
    s.pending = .rd id :: .rd id :: rest →
      ∃ t a, step s = .next t ∧ t = { s with pending := .rd id :: rest, responses := s.responses ++ [a] } ∧
        step t = .next { s with pending := rest, responses := s.responses ++ [a, a] }

/-- 60_exceptions.md R214: no transaction other than `WR CMD` writes `STATUS` (reset sets it, R40). -/
def Obligations.OnlyCommandsAndResetWriteStatus : Prop :=
  ∀ s t : State, step s = .next t → t.status ≠ s.status →
    ∃ rest, s.pending = .reset :: rest ∨ ∃ w, s.pending = .wr 0x10 (.word w) :: rest

/-- 40_host_transfers.md R103, 60_exceptions.md R196: `WR CMD` of any 32-bit word is answered OKAY, never refused, and
leaves a `STATUS` that says OK or FAIL. -/
def Obligations.CommandWriteIsAlwaysAnsweredOkay : Prop :=
  ∀ (s : State) (w : Word) (rest : List Transaction),
    s.Inv Config.build → s.pending = .wr 0x10 (.word w) :: rest →
      ∃ t, step s = .next t ∧ t.pending = rest ∧ t.responses = s.responses ++ [.okay] ∧
        (statusState t.status = 1 ∨ statusState t.status = 2)

/-! ### Reset -/

/-- 10_state.md R40, whole: the state after reset, with the views of it. `HLENR` reads some word `wide` where `HLEN` does not
fit 32 bits (log entry 17). -/
def Obligations.ResetLeavesTheListedValues : Prop :=
  (∀ i, State.reset.readInt i = none) ∧ State.reset.r = none ∧ State.reset.inp = none ∧ State.reset.lbl = some [] ∧
  State.reset.out = none ∧ State.reset.cm = none ∧ State.reset.status = 0x00000000#32 ∧
  statusState State.reset.status = 0 ∧ statusClass State.reset.status = 0 ∧ statusCode State.reset.status = 0 ∧
  hostRead Config.build State.reset .valid = some (.word 0x00000200#32) ∧
  hostRead Config.build State.reset .inlen = some (.word 0#32) ∧
  hostRead Config.build State.reset .lbllen = some (.word 0#32) ∧
  hostRead Config.build State.reset .outlen = some (.word 0#32) ∧
  (∃ wide : Word, hostRead Config.build State.reset .hlenr =
    some (.word (if Config.build.hlen < 2 ^ 32 then BitVec.ofNat 32 Config.build.hlen else wide))) ∧
  hostRead Config.build State.reset .capr = some (.word (BitVec.ofNat 32 Config.build.cap))

/-- 70_reset_and_hazards.md R220: the reset input puts every piece of OCB's state into its reset value. What stands is the
model's own (log entry 10): the host's transactions, the responses given, the trace, the draws. -/
def Obligations.ResetInputEntersTheResetState : Prop :=
  ∀ (s : State) (rest : List Transaction), s.pending = .reset :: rest →
    step s = .next { State.reset with
      pending := rest, responses := s.responses, trace := s.trace, draws := s.draws }

/-- 70_reset_and_hazards.md R220: reset is the only way to invalidate an operand register or `CM`, and the only way back to
`STATE = IDLE`. -/
def Obligations.OnlyResetInvalidatesOperands : Prop :=
  ∀ s t : State, step s = .next t →
    ((∃ i, s.readInt i ≠ none ∧ t.readInt i = none) ∨ (∃ i, s.readBuf i ≠ none ∧ t.readBuf i = none) ∨
      (s.cm ≠ none ∧ t.cm = none) ∨ (statusState s.status ≠ 0 ∧ statusState t.status = 0)) →
    ∃ rest, s.pending = .reset :: rest

/-! ### CM_LOAD -/

/-- 41_crt_modpow.md R121, whole: success latches the four values, with everything but R, OUT, CM, STATUS unchanged; a
missing operand and a zero fail with their codes and leave CM as it was. -/
def Obligations.CmLoadLatchesPositiveOperands : Prop :=
  ∀ s : State,
    (∀ n p q gf, s.n = some n → s.p = some p → s.q = some q → s.gf = some gf →
      n ≠ 0 → p ≠ 0 → q ≠ 0 → gf ≠ 0 →
        exec .cmLoad s = .next { s with
          r := none, out := none, cm := some { n := n, p := p, q := q, gf := gf }, status := 0x00000001#32 }) ∧
    (s.n = none ∨ s.p = none ∨ s.q = none ∨ s.gf = none →
        exec .cmLoad s = .next { s with r := none, out := none, status := 0x00000212#32 }) ∧
    (∀ n p q gf, s.n = some n → s.p = some p → s.q = some q → s.gf = some gf →
      n = 0 ∨ p = 0 ∨ q = 0 ∨ gf = 0 →
        exec .cmLoad s = .next { s with r := none, out := none, status := 0x00000512#32 })

/-! ### CRT_MODPOW -/

/-- 41_crt_modpow.md R126 with R128: presence, E_MOD_ZERO before any port call, and the value of steps 1 to 3 with its two
`ModExp` calls; all else unchanged. The moduli of a `CM` are at least 1 (10_state.md R27), so past E_MOD_ZERO at least 2. -/
def Obligations.CrtModpowComputesGarnersValue : Prop :=
  ∀ s : State,
    (∀ m x exp, s.cm = some m → s.x = some x → s.e = some exp → 2 ≤ m.p → 2 ≤ m.q →
      ∃ r : Nat,
        exec .crtModpow s = .next { s with
          r := some r, out := none, status := 0x00000001#32,
          trace := s.trace ++ [.modExp x (exp % (m.p - 1)) m.p, .modExp x (exp % (m.q - 1)) m.q] } ∧
        (r : Int) =
          (((((x ^ (exp % (m.p - 1)) % m.p : Nat) : Int) - ((x ^ (exp % (m.q - 1)) % m.q : Nat) : Int)) % (m.p : Int))
            * (m.gf : Int)) % (m.p : Int) * (m.q : Int) + ((x ^ (exp % (m.q - 1)) % m.q : Nat) : Int)) ∧
    (s.cm = none ∨ s.x = none ∨ s.e = none →
        exec .crtModpow s = .next { s with r := none, out := none, status := 0x00000212#32 }) ∧
    (∀ m x exp, s.cm = some m → s.x = some x → s.e = some exp → m.p = 1 ∨ m.q = 1 →
        exec .crtModpow s = .next { s with r := none, out := none, status := 0x00000612#32 })

/-- `R.val <= p*q - 1`: 41_crt_modpow.md R129's last sentence, which the spec derives from the ranges of h and b. -/
def Obligations.CrtResultIsBelowPTimesQ : Prop :=
  ∀ (s t : State) (m : CompositeModulus) (v : Nat),
    s.cm = some m → exec .crtModpow s = .next t → t.r = some v → v + 1 ≤ m.p * m.q

/-- `CM.n` takes no part in the computation: 41_crt_modpow.md R131, which the spec derives from R126. -/
def Obligations.CrtResultDoesNotDependOnN : Prop :=
  ∀ (s t : State) (m : CompositeModulus) (n' : Nat),
    s.cm = some m → exec .crtModpow s = .next t →
      exec .crtModpow { s with cm := some { m with n := n' } } = .next { t with cm := some { m with n := n' } }

/-- 41_crt_modpow.md R132, the spec's own derivation from R127, R129 and R7: with p and q distinct primes, n = p*q and
gf*q = 1 (mod p), the result is `x^exp mod n` exactly when for neither prime r: r divides x, exp >= 1 and r - 1 divides
exp. -/
def Obligations.CrtEqualsDirectPowerExactlyWhen : Prop :=
  ∀ (s : State) (m : CompositeModulus) (x exp : Nat),
    s.cm = some m → s.x = some x → s.e = some exp →
    m.p.Prime → m.q.Prime → m.p ≠ m.q → m.n = m.p * m.q → m.gf * m.q % m.p = 1 →
      ∃ t v, exec .crtModpow s = .next t ∧ t.r = some v ∧
        (v = x ^ exp % m.n ↔ ∀ r ∈ [m.p, m.q], ¬ (r ∣ x ∧ 1 ≤ exp ∧ (r - 1) ∣ exp))

/-- 41_crt_modpow.md R133 (a), which the spec derives from R126: `exp = 0` gives `R = 1` for every x, p, q, gf. -/
def Obligations.CrtWithExponentZeroGivesOne : Prop :=
  ∀ (s : State) (m : CompositeModulus) (x : Nat),
    s.cm = some m → s.x = some x → s.e = some 0 → 2 ≤ m.p → 2 ≤ m.q →
      ∃ t, exec .crtModpow s = .next t ∧ t.r = some 1 ∧ t.status = 0x00000001#32

/-- 41_crt_modpow.md R128 ("Consequently", from E_MOD_ZERO and 10_state.md R27): `ModExp` is only ever called with a
modulus of 2 or more. -/
def Obligations.ModExpIsOnlyCalledWithModulusTwoOrMore : Prop :=
  ∀ (i : Instr) (s t : State), exec i s = .next t →
    ∀ b e m, .modExp b e m ∈ t.trace → .modExp b e m ∈ s.trace ∨ 2 ≤ m

/-- Log entry 8, the model's one stop (93_implementation_defined.md U12, "fault if reached"): a `CM` with p or q 0, which
10_state.md R27 excludes and the invariant rules out, would call `ModExp` outside its contract, and `CRT_MODPOW` faults. -/
def Obligations.CrtModpowStopsOnAZeroModulus : Prop :=
  ∀ (s : State) (m : CompositeModulus) (x exp : Nat),
    s.cm = some m → s.x = some x → s.e = some exp → m.p ≠ 1 → m.q ≠ 1 → m.p = 0 ∨ m.q = 0 →
      exec .crtModpow s = .fault .modulusBelowTwo ∧ ¬ s.Inv Config.build

/-! ### MGF1 -/

/-- 42_mgf1.md R145 with R146: presence, then E_LEN_RANGE, then the mask of IN in OUT with its `ceil(len/HLEN)` calls of
`Hash`; all else unchanged. -/
def Obligations.Mgf1WritesTheMaskOfIn : Prop :=
  ∀ (s : State) (len : Nat),
    (∀ seed, s.inp = some seed → len ≤ Config.build.cap →
      exec (.mgf1 len) s = .next { s with
        r := none, out := some (mgf1 Config.build seed len).1, status := 0x00000001#32,
        trace := s.trace ++ maskCalls Config.build seed len }) ∧
    (s.inp = none → exec (.mgf1 len) s = .next { s with r := none, out := none, status := 0x00000212#32 }) ∧
    (s.inp ≠ none → Config.build.cap < len →
      exec (.mgf1 len) s = .next { s with r := none, out := none, status := 0x00000312#32 })

/-- 42_mgf1.md R142 and R144, which the spec derives from R141: the loop of R141 equals the closed form. Its calls are
`Hash(seed ‖ be32(i))` for `i < ceil(L/HLEN)` in order, and output byte j is byte `j mod HLEN` of `Hash(seed ‖
be32(floor(j/HLEN)))`; the counter is 32 bits wide (R143). -/
def Obligations.Mgf1LoopEqualsItsClosedForm : Prop :=
  ∀ (seed : Bytes) (len : Nat),
    (mgf1 Config.build seed len).2 = maskCalls Config.build seed len ∧
    (mgf1 Config.build seed len).1.length = len ∧
    ∀ j, j < len → (mgf1 Config.build seed len).1[j]? =
      (Config.build.hash (seed ++ be32 (BitVec.ofNat 32 (j / Config.build.hlen))))[j % Config.build.hlen]?

/-- 42_mgf1.md R147 (e) and R142, which the spec derives from R141 and R145: IN is not consumed, and a shorter mask is a
prefix of a longer one. -/
def Obligations.Mgf1MasksOfOneSeedArePrefixes : Prop :=
  ∀ (s : State) (seed : Bytes) (a b : Nat), s.inp = some seed → a ≤ b → b ≤ Config.build.cap →
    ∃ t u short long, exec (.mgf1 a) s = .next t ∧ exec (.mgf1 b) t = .next u ∧ t.out = some short ∧ u.out = some long ∧
      long.length = b ∧ short = long.take a

/-! ### OAEP_PAD -/

/-- 43_oaep.md R156 with R158: presence, then E_MSG_TOO_LONG over the integers, both before any port call; else steps 3 to
9 with one draw, and all else unchanged. -/
def Obligations.OaepPadFollowsItsNineSteps : Prop :=
  ∀ s : State,
    (∀ n m label, s.n = some n → s.inp = some m → s.lbl = some label →
      (m.length : Int) ≤ (bytelen n : Int) - 2 * (Config.build.hlen : Int) - 2 →
        let lHash := Config.build.hash (label ++ [0x00#8])
        let ps := List.replicate (bytelen n - m.length - 2 * Config.build.hlen - 2) 0x00#8
        let db := lHash ++ ps ++ [0x01#8] ++ m
        let seed := Config.build.rand s.draws Config.build.hlen
        let dbMask := mgf1 Config.build seed db.length
        let maskedDB := xorBytes db dbMask.1
        let seedMask := mgf1 Config.build maskedDB Config.build.hlen
        let maskedSeed := xorBytes seed seedMask.1
        exec .oaepPad s = .next { s with
          r := none, out := some ([0x00#8] ++ maskedSeed ++ maskedDB), status := 0x00000001#32,
          trace := s.trace ++ [.hash (label ++ [0x00#8]), .rand Config.build.hlen] ++ dbMask.2 ++ seedMask.2,
          draws := s.draws + 1 }) ∧
    (s.n = none ∨ s.inp = none ∨ s.lbl = none →
        exec .oaepPad s = .next { s with r := none, out := none, status := 0x00000212#32 }) ∧
    (∀ n m, s.n = some n → s.inp = some m → s.lbl ≠ none →
      (bytelen n : Int) - 2 * (Config.build.hlen : Int) - 2 < (m.length : Int) →
        exec .oaepPad s = .next { s with r := none, out := none, status := 0x00000412#32 })

/-- 43_oaep.md R164 (a), (b), which the spec derives from R156: the padded message has k bytes, its first is 0x00, and as
an integer it is below `256^(k-1) <= N`. -/
def Obligations.PaddedMessageIsBelowTheModulus : Prop :=
  ∀ (s t : State) (n : Nat), s.n = some n → exec .oaepPad s = .next t → t.status = 0x00000001#32 →
    ∃ em, t.out = some em ∧ em.length = bytelen n ∧ em.head? = some 0x00#8 ∧
      bytesToInt em < 256 ^ (bytelen n - 1) ∧ 256 ^ (bytelen n - 1) ≤ n

/-- 43_oaep.md R164 (c), (d), which the spec derives from R156: for equal operands the outputs are equal exactly when the
two draws are. -/
def Obligations.PadOutputsAreEqualIffSeedsAre : Prop :=
  ∀ (s s' t t' : State), s.n = s'.n → s.inp = s'.inp → s.lbl = s'.lbl →
    exec .oaepPad s = .next t → exec .oaepPad s' = .next t' → t.status = 0x00000001#32 →
      (t.out = t'.out ↔
        Config.build.rand s.draws Config.build.hlen = Config.build.rand s'.draws Config.build.hlen)

/-- 43_oaep.md R162, which the spec derives from R156 and 42_mgf1.md R142: the port trace of a successful pad, `c + 2`
hashes and one draw in order. -/
def Obligations.PadPortTraceIsAsListed : Prop :=
  ∀ (s t : State) (n : Nat) (label em : Bytes), s.n = some n → s.lbl = some label →
    exec .oaepPad s = .next t → t.status = 0x00000001#32 → t.out = some em →
      t.trace = s.trace ++ [.hash (label ++ [0x00#8]), .rand Config.build.hlen]
        ++ maskCalls Config.build (Config.build.rand s.draws Config.build.hlen) (bytelen n - Config.build.hlen - 1)
        ++ [.hash (em.drop (Config.build.hlen + 1) ++ [0x00#8, 0x00#8, 0x00#8, 0x00#8])]

/-- 43_oaep.md R163 (a), which the spec derives from R156, with R177: the empty message can be padded and the result
cannot be unpadded. -/
def Obligations.PaddedEmptyMessageIsRejected : Prop :=
  ∀ (s : State) (n : Nat) (label : Bytes), s.n = some n → s.inp = some [] → s.lbl = some label →
    2 * Config.build.hlen + 2 ≤ bytelen n →
      ∃ t em u, exec .oaepPad s = .next t ∧ t.status = 0x00000001#32 ∧ t.out = some em ∧
        exec .oaepUnpad { t with inp := some em } = .next u ∧ u.status = 0x00001332#32 ∧ u.out = none

/-! ### OAEP_UNPAD -/

/-- 43_oaep.md R170, R172, R173, R200: a missing operand, a short input and a leading byte other than zero fail in that
order, with no port call. -/
def Obligations.OaepUnpadChecksTheRawInputFirst : Prop :=
  ∀ s : State,
    (s.inp = none ∨ s.lbl = none →
        exec .oaepUnpad s = .next { s with r := none, out := none, status := 0x00000212#32 }) ∧
    (∀ em, s.inp = some em → s.lbl ≠ none →
      (em.length < 2 * Config.build.hlen + 2 →
        exec .oaepUnpad s = .next { s with r := none, out := none, status := 0x00001032#32 }) ∧
      (2 * Config.build.hlen + 2 ≤ em.length → em.head? ≠ some 0x00#8 →
        exec .oaepUnpad s = .next { s with r := none, out := none, status := 0x00001132#32 }))

/-- 43_oaep.md R170, R176, R177: past the raw checks, a DB whose tail is not zeros, the marker 0x01 and something fails
E_PAD_NO_MARKER, and a marker that is DB's last byte fails E_PAD_EMPTY_MSG, whatever the label hash. -/
def Obligations.OaepUnpadChecksTheBlockStructure : Prop :=
  ∀ (s : State) (em : Bytes), s.inp = some em → s.lbl ≠ none →
    2 * Config.build.hlen + 2 ≤ em.length → em.head? = some 0x00#8 →
      ((∀ z m, (recovered em).1.drop Config.build.hlen ≠ List.replicate z 0x00#8 ++ 0x01#8 :: m) →
        exec .oaepUnpad s = .next { s with
          r := none, out := none, status := 0x00001232#32, trace := s.trace ++ (recovered em).2 }) ∧
      (∀ z, (recovered em).1.drop Config.build.hlen = List.replicate z 0x00#8 ++ [0x01#8] →
        exec .oaepUnpad s = .next { s with
          r := none, out := none, status := 0x00001332#32, trace := s.trace ++ (recovered em).2 })

/-- 43_oaep.md R170, R178: with a marker and a message, a label hash other than the embedded one fails E_PAD_LABEL. -/
def Obligations.OaepUnpadChecksTheLabelLast : Prop :=
  ∀ (s : State) (em label m : Bytes) (z : Nat), s.inp = some em → s.lbl = some label →
    2 * Config.build.hlen + 2 ≤ em.length → em.head? = some 0x00#8 →
    (recovered em).1.drop Config.build.hlen = List.replicate z 0x00#8 ++ 0x01#8 :: m → m ≠ [] →
    (recovered em).1.take Config.build.hlen ≠ Config.build.hash (label ++ [0x00#8]) →
      exec .oaepUnpad s = .next { s with
        r := none, out := none, status := 0x00001432#32,
        trace := s.trace ++ (recovered em).2 ++ [.hash (label ++ [0x00#8])] }

/-- 43_oaep.md R170, R179: when all five checks pass, OUT receives everything after the marker; all else but R, STATUS and the
trace is unchanged. -/
def Obligations.OaepUnpadReturnsTheMessage : Prop :=
  ∀ (s : State) (em label m : Bytes) (z : Nat), s.inp = some em → s.lbl = some label →
    2 * Config.build.hlen + 2 ≤ em.length → em.head? = some 0x00#8 →
    (recovered em).1.drop Config.build.hlen = List.replicate z 0x00#8 ++ 0x01#8 :: m → m ≠ [] →
    (recovered em).1.take Config.build.hlen = Config.build.hash (label ++ [0x00#8]) →
      exec .oaepUnpad s = .next { s with
        r := none, out := some m, status := 0x00000001#32,
        trace := s.trace ++ (recovered em).2 ++ [.hash (label ++ [0x00#8])] }

/-- 43_oaep.md R172 (the spec's derived sentence on success) and R179: unpad never succeeds on `2*HLEN + 2` bytes or
fewer, and the message it returns has 1 to `k - 2*HLEN - 2` bytes. -/
def Obligations.UnpaddedMessageFitsTheInput : Prop :=
  ∀ (s t : State) (em : Bytes), s.inp = some em → exec .oaepUnpad s = .next t → t.status = 0x00000001#32 →
    2 * Config.build.hlen + 3 ≤ em.length ∧
      ∃ m, t.out = some m ∧ 1 ≤ m.length ∧ m.length + 2 * Config.build.hlen + 2 ≤ em.length

/-- 43_oaep.md R175, which the spec derives from R170: no call when unpad fails at presence, check 1 or check 2; one hash
and then `c` hashes when it fails at check 3 or 4; one more, of the label, otherwise. -/
def Obligations.UnpadPortTraceTellsTheCheck : Prop :=
  ∀ (s t : State) (em label : Bytes), s.inp = some em → s.lbl = some label → exec .oaepUnpad s = .next t →
    let masks := [PortCall.hash (em.drop (Config.build.hlen + 1) ++ [0x00#8, 0x00#8, 0x00#8, 0x00#8])]
      ++ maskCalls Config.build
        (xorBytes ((em.drop 1).take Config.build.hlen)
          (mgf1 Config.build (em.drop (Config.build.hlen + 1)) Config.build.hlen).1)
        (em.length - Config.build.hlen - 1)
    (t.status ∈ [0x00001032#32, 0x00001132#32] → t.trace = s.trace) ∧
    (t.status ∈ [0x00001232#32, 0x00001332#32] → t.trace = s.trace ++ masks) ∧
    (t.status ∈ [0x00001432#32, 0x00000001#32] → t.trace = s.trace ++ masks ++ [.hash (label ++ [0x00#8])])

/-- 43_oaep.md R182, which the spec derives from R156 and R170: for every modulus, label, draw and message of 1 to `k -
2*HLEN - 2` bytes, pad succeeds and unpad of its output with the same label gives the message back. -/
def Obligations.UnpadOfPadGivesTheMessageBack : Prop :=
  ∀ (s : State) (n : Nat) (m label : Bytes), s.n = some n → s.inp = some m → s.lbl = some label →
    1 ≤ m.length → m.length + 2 * Config.build.hlen + 2 ≤ bytelen n →
      ∃ t em u, exec .oaepPad s = .next t ∧ t.status = 0x00000001#32 ∧ t.out = some em ∧
        exec .oaepUnpad { t with inp := some em } = .next u ∧ u.status = 0x00000001#32 ∧ u.out = some m

/-- 43_oaep.md R182, its last sentence (derived by the spec), for every build: under a label whose hash differs, unpad of
a padded message fails E_PAD_LABEL and nothing else. -/
def Obligations.UnpadUnderAnotherLabelFailsAtTheLabel : Prop :=
  ∀ (B : Build) (s : State) (n : Nat) (m label other : Bytes),
    s.n = some n → s.inp = some m → s.lbl = some label → 1 ≤ m.length → m.length + 2 * B.hlen + 2 ≤ bytelen n →
    B.hash (other ++ [0x00#8]) ≠ B.hash (label ++ [0x00#8]) →
      ∃ t em u, commandIn B .oaepPad s = .next t ∧ t.out = some em ∧
        commandIn B .oaepUnpad { t with inp := some em, lbl := some other } = .next u ∧
        u.status = 0x00001432#32 ∧ u.out = none

/-! ### Rules about every command -/

/-- 10_state.md R41, R25: what each command may change, with everything else unchanged: operand registers never, `CM` by
`CM_LOAD` only, `R` and `OUT` invalid unless the command writes them. -/
def Obligations.CommandsChangeOnlyWhatTheyWrite : Prop :=
  ∀ s t : State,
    (exec .cmLoad s = .next t → t = { s with r := none, out := none, cm := t.cm, status := t.status }) ∧
    (exec .crtModpow s = .next t →
      t = { s with r := t.r, out := none, status := t.status, trace := t.trace }) ∧
    (∀ len, exec (.mgf1 len) s = .next t →
      t = { s with r := none, out := t.out, status := t.status, trace := t.trace }) ∧
    (exec .oaepPad s = .next t →
      t = { s with r := none, out := t.out, status := t.status, trace := t.trace, draws := t.draws }) ∧
    (exec .oaepUnpad s = .next t →
      t = { s with r := none, out := t.out, status := t.status, trace := t.trace })

/-- 60_exceptions.md R196: after a failure the state is the state before with R and OUT invalid and STATUS rewritten; only the
port trace may have grown. -/
def Obligations.FailedCommandLeavesOperandsAndCm : Prop :=
  ∀ (i : Instr) (s t : State), exec i s = .next t → t.status ≠ 0x00000001#32 →
    statusState t.status = 2 ∧
      t = { s with r := none, out := none, status := t.status, trace := t.trace }

/-- 60_exceptions.md R195: after a success STATUS is 0x00000001 and the register the command writes is valid. -/
def Obligations.SuccessfulCommandLeavesItsResult : Prop :=
  ∀ (i : Instr) (s t : State), exec i s = .next t → statusState t.status = 1 →
    t.status = 0x00000001#32 ∧
    match i with
    | .cmLoad => t.cm ≠ none ∧ t.r = none ∧ t.out = none
    | .crtModpow => t.r ≠ none ∧ t.out = none
    | .mgf1 len => t.r = none ∧ ∃ b, t.out = some b ∧ b.length = len
    | .oaepPad => t.r = none ∧ t.out ≠ none
    | .oaepUnpad => t.r = none ∧ t.out ≠ none

/-- 10_state.md R25: what a command leaves in R, OUT, CM and STATUS and the port calls it makes depend on the registers of its
"reads" column (and for pad on the draw) and on nothing else. -/
def Obligations.CommandsDependOnlyOnTheirOperands : Prop :=
  ∀ (i : Instr) (s s' t : State), sameOperands s s' i → exec i s = .next t →
    ∃ t' calls, exec i s' = .next t' ∧ t'.r = t.r ∧ t'.out = t.out ∧ t'.status = t.status ∧
      t.trace = s.trace ++ calls ∧ t'.trace = s'.trace ++ calls ∧
      (i = .cmLoad → t.status = 0x00000001#32 → t'.cm = t.cm)

/-- 43_oaep.md R160, 41_crt_modpow.md R135: only a successful pad draws, and it draws once. -/
def Obligations.OnlyASuccessfulPadDrawsAndOnce : Prop :=
  ∀ (i : Instr) (s t : State), exec i s = .next t →
    t.draws = if i = .oaepPad ∧ t.status = 0x00000001#32 then s.draws + 1 else s.draws

/-- 70_reset_and_hazards.md R226, which the spec derives from R126, R142, R162 and R175: the port calls each command makes
at most. -/
def Obligations.PortCallsOfACommandAreBounded : Prop :=
  ∀ s t : State,
    (exec .cmLoad s = .next t → t.trace = s.trace) ∧
    (exec .crtModpow s = .next t → t.trace.length ≤ s.trace.length + 2) ∧
    (∀ len, exec (.mgf1 len) s = .next t → t.trace.length ≤ s.trace.length + hashCount Config.build len) ∧
    (∀ n, s.n = some n → exec .oaepPad s = .next t →
      t.trace.length ≤ s.trace.length + hashCount Config.build (bytelen n - Config.build.hlen - 1) + 3) ∧
    (∀ em, s.inp = some em → exec .oaepUnpad s = .next t →
      t.trace.length ≤ s.trace.length + hashCount Config.build (em.length - Config.build.hlen - 1) + 2)

/-! ### The invariant and safety -/

/-- 10_state.md R40 with R21 to R31: the invariant holds after reset. -/
def Obligations.ResetStateMeetsTheInvariants : Prop :=
  State.reset.Inv Config.build

/-- 10_state.md R21 to R24, R27, R29, R30, 43_oaep.md R163 (e): every step keeps the bounds of all registers, the
positivity of CM, the legality of STATUS, the validity of LBL, and "a result is valid only after a success". -/
def Obligations.EveryStepKeepsTheInvariants : Prop :=
  ∀ s t : State, s.Inv Config.build → step s = .next t → t.Inv Config.build

/-- No transaction and no command stops OCB: from every state that meets the invariant the machine answers a next state.
A failure is a result and not a stop (60_exceptions.md R196, R197); that every command is one terminating step is
70_reset_and_hazards.md R226, the spec's own derivation from R126, R142, R162 and R175; the step of an empty queue is the
model's idle step (log entry 3), and the queue is the model's own. -/
def Obligations.NoStepStopsTheMachine : Prop :=
  ∀ s : State, s.Inv Config.build → ∃ t, step s = .next t ∧ t.pending = s.pending.tail

/-! ### Status words and operand functions -/

/-- 60_exceptions.md R192 and 10_state.md R29, R31: each failure's STATUS word, and its fields read back. -/
def Obligations.FailureStatusWordsAreTheTable : Prop :=
  Failure.all.map Failure.statusWord =
    [0x00000112#32, 0x00000212#32, 0x00000312#32, 0x00000412#32, 0x00000512#32, 0x00000612#32,
     0x00001032#32, 0x00001132#32, 0x00001232#32, 0x00001332#32, 0x00001432#32] ∧
  ∀ c : Failure, statusState c.statusWord = 2 ∧ statusClass c.statusWord = c.class ∧ statusCode c.statusWord = c.code ∧
    c.statusWord &&& 0xFFFF000C#32 = 0x00000000#32

/-- 00_scope.md R11, whole: `BytesToInt` is the big-endian sum, leading zeros do not change it, and `IntToBytes(v, L)` is
the one string of length L with value v. -/
def Obligations.IntegerConversionsAreBigEndianInverses : Prop :=
  (∀ b : Bytes, bytesToInt b = ∑ i : Fin b.length, b[i].toNat * 256 ^ (b.length - 1 - i)) ∧
  (∀ b : Bytes, bytesToInt (0x00#8 :: b) = bytesToInt b) ∧
  ∀ v len, v < 256 ^ len → ∀ b : Bytes, (b.length = len ∧ bytesToInt b = v) ↔ b = intToBytes v len

/-- 00_scope.md R12: `bytelen(v)` is the least L with `v < 256^L`. -/
def Obligations.BytelenIsTheLeastLength : Prop :=
  ∀ v : Nat, v < 256 ^ bytelen v ∧ ∀ len, v < 256 ^ len → bytelen v ≤ len

/-- 00_scope.md R7: for a modulus of 2 or more the port returns the one r below it congruent to the power, and 1 for exponent
0. -/
def Obligations.ModExpPortMeetsItsContract : Prop :=
  ∀ base exp modulus : Nat, 2 ≤ modulus →
    ∃ r, modExpPort base exp modulus = .ok (r, [.modExp base exp modulus]) ∧ r < modulus ∧
      r ≡ base ^ exp [MOD modulus] ∧ (exp = 0 → r = 1)
end

