-- ==== Sys2Proof/Laws/Operands.lean ====
section
/-! SUPPORT. What the byte-string and integer operations do (00_scope.md R10 to R13). -/

namespace Sys2Proof.Machine

/-! ### Lengths -/

@[simp] theorem intToBytes_length (v len : Nat) : (intToBytes v len).length = len := by
  induction len generalizing v with
  | zero => rfl
  | succ len ih => simp [intToBytes, ih]

@[simp] theorem be32_length (c : Word) : (be32 c).length = 4 := by simp [be32]

@[simp] theorem zeros_length (len : Nat) : (zeros len).length = len := by simp [zeros]

@[simp] theorem xorBytes_length (a b : Bytes) : (xorBytes a b).length = min a.length b.length := by simp [xorBytes]

theorem slice_length (b : Bytes) (lo len : Nat) : (slice b lo len).length = min len (b.length - lo) := by simp [slice]

/-! ### Exclusive or undoes itself -/

theorem xorBytes_xorBytes_cancel (a mask : Bytes) (h : a.length = mask.length) :
    xorBytes (xorBytes a mask) mask = a := by
  induction a generalizing mask with
  | nil => simp [xorBytes]
  | cons x a ih =>
    cases mask with
    | nil => simp at h
    | cons y mask =>
      have rest := ih mask (by simpa using h)
      simp only [xorBytes, List.zipWith_cons_cons] at rest ⊢
      rw [rest, BitVec.xor_assoc, BitVec.xor_self, BitVec.xor_zero]

/-! ### BytesToInt -/

@[simp] theorem bytesToInt_nil : bytesToInt [] = 0 := rfl

theorem bytesToInt_concat (b : Bytes) (last : Byte) :
    bytesToInt (b ++ [last]) = bytesToInt b * 256 + last.toNat := by
  simp [bytesToInt, List.foldl_append]

theorem bytesToInt_append (a b : Bytes) : bytesToInt (a ++ b) = bytesToInt a * 256 ^ b.length + bytesToInt b := by
  induction b using List.reverseRecOn with
  | nil => simp
  | append_singleton b last ih =>
    rw [← List.append_assoc, bytesToInt_concat, bytesToInt_concat, ih, List.length_append, List.length_singleton, pow_succ]
    ring

theorem bytesToInt_cons (first : Byte) (b : Bytes) :
    bytesToInt (first :: b) = first.toNat * 256 ^ b.length + bytesToInt b := by
  have h := bytesToInt_append [first] b
  simpa [bytesToInt] using h

theorem bytesToInt_lt (b : Bytes) : bytesToInt b < 256 ^ b.length := by
  induction b using List.reverseRecOn with
  | nil => simp
  | append_singleton b last ih =>
    rw [bytesToInt_concat, List.length_append, List.length_singleton, pow_succ]
    have := last.isLt
    omega

/-! ### Byte length -/

theorem bytelen_pow (k : Nat) : bytelen (256 ^ k) = k + 1 := by
  have h : (256 : Nat) ^ k = 2 ^ (8 * k) := by rw [pow_mul]; norm_num
  have hne : (256 : Nat) ^ k ≠ 0 := by positivity
  rw [bytelen, bitlen, if_neg hne, h, Nat.log2_two_pow]
  omega

end Sys2Proof.Machine
end

