-- ==== Sys2Proof/Laws/Ops.lean ====
section
/-! SUPPORT. What the shared operations answer: the ports, the mask function, masking and unmasking, the scan. -/

namespace Sys2Proof.Machine

/-! ### Views -/

/-- A digest length that fits `HLENR` is read exactly (10_state.md R35). -/
theorem hlenView_toNat {B : Build} (h : B.hlen < 2 ^ 32) : (hlenView B).toNat = B.hlen := by
  rw [hlenView, if_pos h, numberView, BitVec.toNat_ofNat, Nat.mod_eq_of_lt h]

/-- `CAP` is read exactly (10_state.md R35). -/
theorem capView_toNat (B : Build) : (capView B).toNat = B.cap := by
  rw [capView, numberView, BitVec.toNat_ofNat, Nat.mod_eq_of_lt (B.cap_lt.trans (by decide))]

/-! ### Ports -/

@[simp] theorem hashPort_fst (B : Build) (arg : Bytes) : (hashPort B arg).1 = B.hash arg := rfl

@[simp] theorem hashPort_snd (B : Build) (arg : Bytes) : (hashPort B arg).2 = [.hash arg] := rfl

@[simp] theorem labelHash_fst (B : Build) (label : Bytes) : (labelHash B label).1 = B.hash (label ++ [0x00#8]) := rfl

@[simp] theorem labelHash_snd (B : Build) (label : Bytes) : (labelHash B label).2 = [.hash (label ++ [0x00#8])] := rfl

@[simp] theorem randAnswer_length (B : Build) (s : State) (count : Nat) : (s.randAnswer B count).length = count :=
  B.rand_length _ _

theorem modExpPort_ok {base exp modulus : Nat} (h : 2 ≤ modulus) :
    modExpPort base exp modulus = .ok (base ^ exp % modulus, [.modExp base exp modulus]) := by
  rw [modExpPort, if_neg (by omega)]

/-- Everything `crtPower` can answer: with both moduli 2 or more, Garner's value and the two calls, else the fault. -/
theorem crtPower_eq (m : CompositeModulus) (x exp : Nat) :
    crtPower m x exp =
      if m.p < 2 ∨ m.q < 2 then .error .modulusBelowTwo
      else .ok (garner m.p m.q m.gf (x ^ (exp % (m.p - 1)) % m.p) (x ^ (exp % (m.q - 1)) % m.q),
        [.modExp x (exp % (m.p - 1)) m.p, .modExp x (exp % (m.q - 1)) m.q]) := by
  unfold crtPower modExpPort
  by_cases hp : m.p < 2 <;> by_cases hq : m.q < 2 <;> simp [hp, hq]

/-! ### The mask function -/

/-- With enough fuel left for what is missing, the loop fills the accumulator up to `len`. -/
theorem mgf1Loop_reaches (B : Build) (seed : Bytes) (len fuel : Nat) (ctr : Word) (acc : Bytes)
    (h : len ≤ acc.length + fuel) : len ≤ (mgf1Loop B seed len fuel ctr acc).1.length := by
  induction fuel generalizing ctr acc with
  | zero => simpa [mgf1Loop] using h
  | succ fuel ih =>
    have hpos := B.hlen_pos
    unfold mgf1Loop
    split
    · exact ih _ _ (by simp only [List.length_append, hashPort_fst, B.hash_length]; omega)
    · simpa using by omega

/-- `MGF1(seed, L)` returns exactly `L` bytes (42_mgf1.md R141). -/
@[simp] theorem mgf1_length (B : Build) (seed : Bytes) (len : Nat) : (mgf1 B seed len).1.length = len := by
  have h := mgf1Loop_reaches B seed len len 0#32 [] (by simp)
  simp only [mgf1, List.length_take]
  omega

/-! ### Masking and unmasking -/

theorem oaepMask_fst (B : Build) (seed db : Bytes) :
    (oaepMask B seed db).1 =
      [0x00#8] ++ xorBytes seed (mgf1 B (xorBytes db (mgf1 B seed db.length).1) B.hlen).1
        ++ xorBytes db (mgf1 B seed db.length).1 := rfl

/-- The padded message has the leading byte, `HLEN` bytes of masked seed and the masked DB (43_oaep.md R155). -/
theorem oaepMask_length (B : Build) (seed db : Bytes) (h : seed.length = B.hlen) :
    (oaepMask B seed db).1.length = db.length + B.hlen + 1 := by
  simp [oaepMask_fst, h]
  omega

@[simp] theorem oaepMask_head (B : Build) (seed db : Bytes) : (oaepMask B seed db).1.head? = some 0x00#8 := by
  simp [oaepMask_fst]

/-- Unmasking undoes masking: the seed and DB come back (43_oaep.md R174). -/
theorem oaepUnmask_oaepMask (B : Build) (seed db : Bytes) (h : seed.length = B.hlen) :
    (oaepUnmask B (oaepMask B seed db).1).1 = (seed, db) := by
  have hlen := oaepMask_length B seed db h
  have hdb : (oaepMask B seed db).1.length - B.hlen - 1 = db.length := by omega
  have hseed : slice (oaepMask B seed db).1 1 B.hlen
      = xorBytes seed (mgf1 B (xorBytes db (mgf1 B seed db.length).1) B.hlen).1 := by
    rw [oaepMask_fst, slice, List.append_assoc, List.singleton_append, List.drop_succ_cons, List.drop_zero,
      List.take_append_of_le_length (by simp [h]), List.take_of_length_le (by simp)]
  have hmasked : slice (oaepMask B seed db).1 (B.hlen + 1) db.length = xorBytes db (mgf1 B seed db.length).1 := by
    rw [oaepMask_fst, slice, List.append_assoc, List.singleton_append, List.drop_succ_cons,
      List.drop_append_of_le_length (by simp [h]), List.drop_of_length_le (by simp), List.nil_append,
      List.take_of_length_le (by simp)]
  simp only [oaepUnmask, hdb, hseed, hmasked]
  rw [xorBytes_xorBytes_cancel _ _ (by simp [h]), xorBytes_xorBytes_cancel _ _ (by simp)]

/-! ### The scan -/

theorem scanPadding_marker (B : Build) (db m : Bytes) (z : Nat)
    (h : db.drop B.hlen = zeros z ++ 0x01#8 :: m) : scanPadding B db = 0x01#8 :: m := by
  rw [scanPadding, h, zeros, List.dropWhile_append]
  simp

/-- Padding zeros, the marker and a message: the scan finds the message, or the empty one fails (43_oaep.md R176, R177). -/
theorem findMessage_marker (B : Build) (db m : Bytes) (z : Nat) (h : db.drop B.hlen = zeros z ++ 0x01#8 :: m) :
    findMessage B db = if m = [] then .error .padEmptyMsg else .ok m := by
  simp [findMessage, scanPadding_marker B db m z h]

/-- Everything the scan can answer: a message it accepts stands behind zeros and the marker, and is not empty. -/
theorem findMessage_ok {B : Build} {db m : Bytes} (h : findMessage B db = .ok m) :
    m ≠ [] ∧ ∃ z, db.drop B.hlen = zeros z ++ 0x01#8 :: m := by
  have halves := List.takeWhile_append_dropWhile (p := fun b => b == 0x00#8) (l := db.drop B.hlen)
  have padding : (db.drop B.hlen).takeWhile (fun b => b == 0x00#8)
      = zeros ((db.drop B.hlen).takeWhile (fun b => b == 0x00#8)).length :=
    List.eq_replicate_iff.mpr ⟨rfl, fun b hb => by simpa using List.mem_takeWhile_imp hb⟩
  unfold findMessage at h
  split at h
  · cases h
  · next marker rest hs =>
    rw [scanPadding] at hs
    split_ifs at h with hm hr
    cases h
    rw [padding, hs, not_not.mp hm] at halves
    exact ⟨hr, _, halves.symm⟩

end Sys2Proof.Machine
end

