-- ==== Sys2Proof/Laws/State.lean ====
section
/-! SUPPORT. One lemma per field of State per update: what the update leaves in the field. Each is true by rfl. -/

namespace Sys2Proof.Machine

variable (s : State)

/-! ### `State.beginCommand` -/

@[simp] theorem State.beginCommand_n : (s.beginCommand).n = s.n := rfl
@[simp] theorem State.beginCommand_p : (s.beginCommand).p = s.p := rfl
@[simp] theorem State.beginCommand_q : (s.beginCommand).q = s.q := rfl
@[simp] theorem State.beginCommand_gf : (s.beginCommand).gf = s.gf := rfl
@[simp] theorem State.beginCommand_x : (s.beginCommand).x = s.x := rfl
@[simp] theorem State.beginCommand_e : (s.beginCommand).e = s.e := rfl
@[simp] theorem State.beginCommand_r : (s.beginCommand).r = none := rfl
@[simp] theorem State.beginCommand_inp : (s.beginCommand).inp = s.inp := rfl
@[simp] theorem State.beginCommand_lbl : (s.beginCommand).lbl = s.lbl := rfl
@[simp] theorem State.beginCommand_out : (s.beginCommand).out = none := rfl
@[simp] theorem State.beginCommand_cm : (s.beginCommand).cm = s.cm := rfl
@[simp] theorem State.beginCommand_status : (s.beginCommand).status = s.status := rfl
@[simp] theorem State.beginCommand_pending : (s.beginCommand).pending = s.pending := rfl
@[simp] theorem State.beginCommand_responses : (s.beginCommand).responses = s.responses := rfl
@[simp] theorem State.beginCommand_trace : (s.beginCommand).trace = s.trace := rfl
@[simp] theorem State.beginCommand_draws : (s.beginCommand).draws = s.draws := rfl

/-! ### `State.fail` -/

@[simp] theorem State.fail_n (c : Failure) : (s.fail c).n = s.n := rfl
@[simp] theorem State.fail_p (c : Failure) : (s.fail c).p = s.p := rfl
@[simp] theorem State.fail_q (c : Failure) : (s.fail c).q = s.q := rfl
@[simp] theorem State.fail_gf (c : Failure) : (s.fail c).gf = s.gf := rfl
@[simp] theorem State.fail_x (c : Failure) : (s.fail c).x = s.x := rfl
@[simp] theorem State.fail_e (c : Failure) : (s.fail c).e = s.e := rfl
@[simp] theorem State.fail_r (c : Failure) : (s.fail c).r = s.r := rfl
@[simp] theorem State.fail_inp (c : Failure) : (s.fail c).inp = s.inp := rfl
@[simp] theorem State.fail_lbl (c : Failure) : (s.fail c).lbl = s.lbl := rfl
@[simp] theorem State.fail_out (c : Failure) : (s.fail c).out = s.out := rfl
@[simp] theorem State.fail_cm (c : Failure) : (s.fail c).cm = s.cm := rfl
@[simp] theorem State.fail_status (c : Failure) : (s.fail c).status = c.statusWord := rfl
@[simp] theorem State.fail_pending (c : Failure) : (s.fail c).pending = s.pending := rfl
@[simp] theorem State.fail_responses (c : Failure) : (s.fail c).responses = s.responses := rfl
@[simp] theorem State.fail_trace (c : Failure) : (s.fail c).trace = s.trace := rfl
@[simp] theorem State.fail_draws (c : Failure) : (s.fail c).draws = s.draws := rfl

/-! ### `State.done` -/

@[simp] theorem State.done_n : (s.done).n = s.n := rfl
@[simp] theorem State.done_p : (s.done).p = s.p := rfl
@[simp] theorem State.done_q : (s.done).q = s.q := rfl
@[simp] theorem State.done_gf : (s.done).gf = s.gf := rfl
@[simp] theorem State.done_x : (s.done).x = s.x := rfl
@[simp] theorem State.done_e : (s.done).e = s.e := rfl
@[simp] theorem State.done_r : (s.done).r = s.r := rfl
@[simp] theorem State.done_inp : (s.done).inp = s.inp := rfl
@[simp] theorem State.done_lbl : (s.done).lbl = s.lbl := rfl
@[simp] theorem State.done_out : (s.done).out = s.out := rfl
@[simp] theorem State.done_cm : (s.done).cm = s.cm := rfl
@[simp] theorem State.done_status : (s.done).status = statusOk := rfl
@[simp] theorem State.done_pending : (s.done).pending = s.pending := rfl
@[simp] theorem State.done_responses : (s.done).responses = s.responses := rfl
@[simp] theorem State.done_trace : (s.done).trace = s.trace := rfl
@[simp] theorem State.done_draws : (s.done).draws = s.draws := rfl

/-! ### `State.setCm` -/

@[simp] theorem State.setCm_n (m : CompositeModulus) : (s.setCm m).n = s.n := rfl
@[simp] theorem State.setCm_p (m : CompositeModulus) : (s.setCm m).p = s.p := rfl
@[simp] theorem State.setCm_q (m : CompositeModulus) : (s.setCm m).q = s.q := rfl
@[simp] theorem State.setCm_gf (m : CompositeModulus) : (s.setCm m).gf = s.gf := rfl
@[simp] theorem State.setCm_x (m : CompositeModulus) : (s.setCm m).x = s.x := rfl
@[simp] theorem State.setCm_e (m : CompositeModulus) : (s.setCm m).e = s.e := rfl
@[simp] theorem State.setCm_r (m : CompositeModulus) : (s.setCm m).r = s.r := rfl
@[simp] theorem State.setCm_inp (m : CompositeModulus) : (s.setCm m).inp = s.inp := rfl
@[simp] theorem State.setCm_lbl (m : CompositeModulus) : (s.setCm m).lbl = s.lbl := rfl
@[simp] theorem State.setCm_out (m : CompositeModulus) : (s.setCm m).out = s.out := rfl
@[simp] theorem State.setCm_cm (m : CompositeModulus) : (s.setCm m).cm = some m := rfl
@[simp] theorem State.setCm_status (m : CompositeModulus) : (s.setCm m).status = s.status := rfl
@[simp] theorem State.setCm_pending (m : CompositeModulus) : (s.setCm m).pending = s.pending := rfl
@[simp] theorem State.setCm_responses (m : CompositeModulus) : (s.setCm m).responses = s.responses := rfl
@[simp] theorem State.setCm_trace (m : CompositeModulus) : (s.setCm m).trace = s.trace := rfl
@[simp] theorem State.setCm_draws (m : CompositeModulus) : (s.setCm m).draws = s.draws := rfl

/-! ### `State.setR` -/

@[simp] theorem State.setR_n (v : Nat) : (s.setR v).n = s.n := rfl
@[simp] theorem State.setR_p (v : Nat) : (s.setR v).p = s.p := rfl
@[simp] theorem State.setR_q (v : Nat) : (s.setR v).q = s.q := rfl
@[simp] theorem State.setR_gf (v : Nat) : (s.setR v).gf = s.gf := rfl
@[simp] theorem State.setR_x (v : Nat) : (s.setR v).x = s.x := rfl
@[simp] theorem State.setR_e (v : Nat) : (s.setR v).e = s.e := rfl
@[simp] theorem State.setR_r (v : Nat) : (s.setR v).r = some v := rfl
@[simp] theorem State.setR_inp (v : Nat) : (s.setR v).inp = s.inp := rfl
@[simp] theorem State.setR_lbl (v : Nat) : (s.setR v).lbl = s.lbl := rfl
@[simp] theorem State.setR_out (v : Nat) : (s.setR v).out = s.out := rfl
@[simp] theorem State.setR_cm (v : Nat) : (s.setR v).cm = s.cm := rfl
@[simp] theorem State.setR_status (v : Nat) : (s.setR v).status = s.status := rfl
@[simp] theorem State.setR_pending (v : Nat) : (s.setR v).pending = s.pending := rfl
@[simp] theorem State.setR_responses (v : Nat) : (s.setR v).responses = s.responses := rfl
@[simp] theorem State.setR_trace (v : Nat) : (s.setR v).trace = s.trace := rfl
@[simp] theorem State.setR_draws (v : Nat) : (s.setR v).draws = s.draws := rfl

/-! ### `State.setOut` -/

@[simp] theorem State.setOut_n (b : Bytes) : (s.setOut b).n = s.n := rfl
@[simp] theorem State.setOut_p (b : Bytes) : (s.setOut b).p = s.p := rfl
@[simp] theorem State.setOut_q (b : Bytes) : (s.setOut b).q = s.q := rfl
@[simp] theorem State.setOut_gf (b : Bytes) : (s.setOut b).gf = s.gf := rfl
@[simp] theorem State.setOut_x (b : Bytes) : (s.setOut b).x = s.x := rfl
@[simp] theorem State.setOut_e (b : Bytes) : (s.setOut b).e = s.e := rfl
@[simp] theorem State.setOut_r (b : Bytes) : (s.setOut b).r = s.r := rfl
@[simp] theorem State.setOut_inp (b : Bytes) : (s.setOut b).inp = s.inp := rfl
@[simp] theorem State.setOut_lbl (b : Bytes) : (s.setOut b).lbl = s.lbl := rfl
@[simp] theorem State.setOut_out (b : Bytes) : (s.setOut b).out = some b := rfl
@[simp] theorem State.setOut_cm (b : Bytes) : (s.setOut b).cm = s.cm := rfl
@[simp] theorem State.setOut_status (b : Bytes) : (s.setOut b).status = s.status := rfl
@[simp] theorem State.setOut_pending (b : Bytes) : (s.setOut b).pending = s.pending := rfl
@[simp] theorem State.setOut_responses (b : Bytes) : (s.setOut b).responses = s.responses := rfl
@[simp] theorem State.setOut_trace (b : Bytes) : (s.setOut b).trace = s.trace := rfl
@[simp] theorem State.setOut_draws (b : Bytes) : (s.setOut b).draws = s.draws := rfl

/-! ### `State.record` -/

@[simp] theorem State.record_n (calls : List PortCall) : (s.record calls).n = s.n := rfl
@[simp] theorem State.record_p (calls : List PortCall) : (s.record calls).p = s.p := rfl
@[simp] theorem State.record_q (calls : List PortCall) : (s.record calls).q = s.q := rfl
@[simp] theorem State.record_gf (calls : List PortCall) : (s.record calls).gf = s.gf := rfl
@[simp] theorem State.record_x (calls : List PortCall) : (s.record calls).x = s.x := rfl
@[simp] theorem State.record_e (calls : List PortCall) : (s.record calls).e = s.e := rfl
@[simp] theorem State.record_r (calls : List PortCall) : (s.record calls).r = s.r := rfl
@[simp] theorem State.record_inp (calls : List PortCall) : (s.record calls).inp = s.inp := rfl
@[simp] theorem State.record_lbl (calls : List PortCall) : (s.record calls).lbl = s.lbl := rfl
@[simp] theorem State.record_out (calls : List PortCall) : (s.record calls).out = s.out := rfl
@[simp] theorem State.record_cm (calls : List PortCall) : (s.record calls).cm = s.cm := rfl
@[simp] theorem State.record_status (calls : List PortCall) : (s.record calls).status = s.status := rfl
@[simp] theorem State.record_pending (calls : List PortCall) : (s.record calls).pending = s.pending := rfl
@[simp] theorem State.record_responses (calls : List PortCall) : (s.record calls).responses = s.responses := rfl
@[simp] theorem State.record_trace (calls : List PortCall) : (s.record calls).trace = s.trace ++ calls := rfl
@[simp] theorem State.record_draws (calls : List PortCall) : (s.record calls).draws = s.draws := rfl

/-! ### `State.drawn` -/

@[simp] theorem State.drawn_n (count : Nat) : (s.drawn count).n = s.n := rfl
@[simp] theorem State.drawn_p (count : Nat) : (s.drawn count).p = s.p := rfl
@[simp] theorem State.drawn_q (count : Nat) : (s.drawn count).q = s.q := rfl
@[simp] theorem State.drawn_gf (count : Nat) : (s.drawn count).gf = s.gf := rfl
@[simp] theorem State.drawn_x (count : Nat) : (s.drawn count).x = s.x := rfl
@[simp] theorem State.drawn_e (count : Nat) : (s.drawn count).e = s.e := rfl
@[simp] theorem State.drawn_r (count : Nat) : (s.drawn count).r = s.r := rfl
@[simp] theorem State.drawn_inp (count : Nat) : (s.drawn count).inp = s.inp := rfl
@[simp] theorem State.drawn_lbl (count : Nat) : (s.drawn count).lbl = s.lbl := rfl
@[simp] theorem State.drawn_out (count : Nat) : (s.drawn count).out = s.out := rfl
@[simp] theorem State.drawn_cm (count : Nat) : (s.drawn count).cm = s.cm := rfl
@[simp] theorem State.drawn_status (count : Nat) : (s.drawn count).status = s.status := rfl
@[simp] theorem State.drawn_pending (count : Nat) : (s.drawn count).pending = s.pending := rfl
@[simp] theorem State.drawn_responses (count : Nat) : (s.drawn count).responses = s.responses := rfl
@[simp] theorem State.drawn_trace (count : Nat) : (s.drawn count).trace = s.trace ++ [.rand count] := rfl
@[simp] theorem State.drawn_draws (count : Nat) : (s.drawn count).draws = s.draws + 1 := rfl

/-! ### `State.respond` -/

@[simp] theorem State.respond_n (a : Response) : (s.respond a).n = s.n := rfl
@[simp] theorem State.respond_p (a : Response) : (s.respond a).p = s.p := rfl
@[simp] theorem State.respond_q (a : Response) : (s.respond a).q = s.q := rfl
@[simp] theorem State.respond_gf (a : Response) : (s.respond a).gf = s.gf := rfl
@[simp] theorem State.respond_x (a : Response) : (s.respond a).x = s.x := rfl
@[simp] theorem State.respond_e (a : Response) : (s.respond a).e = s.e := rfl
@[simp] theorem State.respond_r (a : Response) : (s.respond a).r = s.r := rfl
@[simp] theorem State.respond_inp (a : Response) : (s.respond a).inp = s.inp := rfl
@[simp] theorem State.respond_lbl (a : Response) : (s.respond a).lbl = s.lbl := rfl
@[simp] theorem State.respond_out (a : Response) : (s.respond a).out = s.out := rfl
@[simp] theorem State.respond_cm (a : Response) : (s.respond a).cm = s.cm := rfl
@[simp] theorem State.respond_status (a : Response) : (s.respond a).status = s.status := rfl
@[simp] theorem State.respond_pending (a : Response) : (s.respond a).pending = s.pending := rfl
@[simp] theorem State.respond_responses (a : Response) : (s.respond a).responses = s.responses ++ [a] := rfl
@[simp] theorem State.respond_trace (a : Response) : (s.respond a).trace = s.trace := rfl
@[simp] theorem State.respond_draws (a : Response) : (s.respond a).draws = s.draws := rfl

/-! ### `State.take` -/

@[simp] theorem State.take_n (rest : List Transaction) : (s.take rest).n = s.n := rfl
@[simp] theorem State.take_p (rest : List Transaction) : (s.take rest).p = s.p := rfl
@[simp] theorem State.take_q (rest : List Transaction) : (s.take rest).q = s.q := rfl
@[simp] theorem State.take_gf (rest : List Transaction) : (s.take rest).gf = s.gf := rfl
@[simp] theorem State.take_x (rest : List Transaction) : (s.take rest).x = s.x := rfl
@[simp] theorem State.take_e (rest : List Transaction) : (s.take rest).e = s.e := rfl
@[simp] theorem State.take_r (rest : List Transaction) : (s.take rest).r = s.r := rfl
@[simp] theorem State.take_inp (rest : List Transaction) : (s.take rest).inp = s.inp := rfl
@[simp] theorem State.take_lbl (rest : List Transaction) : (s.take rest).lbl = s.lbl := rfl
@[simp] theorem State.take_out (rest : List Transaction) : (s.take rest).out = s.out := rfl
@[simp] theorem State.take_cm (rest : List Transaction) : (s.take rest).cm = s.cm := rfl
@[simp] theorem State.take_status (rest : List Transaction) : (s.take rest).status = s.status := rfl
@[simp] theorem State.take_pending (rest : List Transaction) : (s.take rest).pending = rest := rfl
@[simp] theorem State.take_responses (rest : List Transaction) : (s.take rest).responses = s.responses := rfl
@[simp] theorem State.take_trace (rest : List Transaction) : (s.take rest).trace = s.trace := rfl
@[simp] theorem State.take_draws (rest : List Transaction) : (s.take rest).draws = s.draws := rfl

/-! ### `State.resetInput` -/

@[simp] theorem State.resetInput_n : (s.resetInput).n = State.reset.n := rfl
@[simp] theorem State.resetInput_p : (s.resetInput).p = State.reset.p := rfl
@[simp] theorem State.resetInput_q : (s.resetInput).q = State.reset.q := rfl
@[simp] theorem State.resetInput_gf : (s.resetInput).gf = State.reset.gf := rfl
@[simp] theorem State.resetInput_x : (s.resetInput).x = State.reset.x := rfl
@[simp] theorem State.resetInput_e : (s.resetInput).e = State.reset.e := rfl
@[simp] theorem State.resetInput_r : (s.resetInput).r = State.reset.r := rfl
@[simp] theorem State.resetInput_inp : (s.resetInput).inp = State.reset.inp := rfl
@[simp] theorem State.resetInput_lbl : (s.resetInput).lbl = State.reset.lbl := rfl
@[simp] theorem State.resetInput_out : (s.resetInput).out = State.reset.out := rfl
@[simp] theorem State.resetInput_cm : (s.resetInput).cm = State.reset.cm := rfl
@[simp] theorem State.resetInput_status : (s.resetInput).status = State.reset.status := rfl
@[simp] theorem State.resetInput_pending : (s.resetInput).pending = s.pending := rfl
@[simp] theorem State.resetInput_responses : (s.resetInput).responses = s.responses := rfl
@[simp] theorem State.resetInput_trace : (s.resetInput).trace = s.trace := rfl
@[simp] theorem State.resetInput_draws : (s.resetInput).draws = s.draws := rfl

/-! ### `State.writeInt` and `State.writeBuf`: one register, nothing else -/

@[simp] theorem State.writeInt_r (i : IntOperand) (v : Nat) : (s.writeInt i v).r = s.r := by cases i <;> rfl
@[simp] theorem State.writeInt_inp (i : IntOperand) (v : Nat) : (s.writeInt i v).inp = s.inp := by cases i <;> rfl
@[simp] theorem State.writeInt_lbl (i : IntOperand) (v : Nat) : (s.writeInt i v).lbl = s.lbl := by cases i <;> rfl
@[simp] theorem State.writeInt_out (i : IntOperand) (v : Nat) : (s.writeInt i v).out = s.out := by cases i <;> rfl
@[simp] theorem State.writeInt_cm (i : IntOperand) (v : Nat) : (s.writeInt i v).cm = s.cm := by cases i <;> rfl
@[simp] theorem State.writeInt_status (i : IntOperand) (v : Nat) : (s.writeInt i v).status = s.status := by cases i <;> rfl
@[simp] theorem State.writeInt_pending (i : IntOperand) (v : Nat) : (s.writeInt i v).pending = s.pending := by cases i <;> rfl
@[simp] theorem State.writeInt_responses (i : IntOperand) (v : Nat) : (s.writeInt i v).responses = s.responses := by cases i <;> rfl
@[simp] theorem State.writeInt_trace (i : IntOperand) (v : Nat) : (s.writeInt i v).trace = s.trace := by cases i <;> rfl
@[simp] theorem State.writeInt_draws (i : IntOperand) (v : Nat) : (s.writeInt i v).draws = s.draws := by cases i <;> rfl

@[simp] theorem State.readInt_writeInt (i j : IntOperand) (v : Nat) :
    (s.writeInt i v).readInt j = if j = i then some v else s.readInt j := by cases i <;> cases j <;> rfl

@[simp] theorem State.readBuf_writeInt (i : IntOperand) (v : Nat) (j : BufOperand) :
    (s.writeInt i v).readBuf j = s.readBuf j := by cases i <;> cases j <;> rfl

@[simp] theorem State.writeBuf_n (i : BufOperand) (b : Bytes) : (s.writeBuf i b).n = s.n := by cases i <;> rfl
@[simp] theorem State.writeBuf_p (i : BufOperand) (b : Bytes) : (s.writeBuf i b).p = s.p := by cases i <;> rfl
@[simp] theorem State.writeBuf_q (i : BufOperand) (b : Bytes) : (s.writeBuf i b).q = s.q := by cases i <;> rfl
@[simp] theorem State.writeBuf_gf (i : BufOperand) (b : Bytes) : (s.writeBuf i b).gf = s.gf := by cases i <;> rfl
@[simp] theorem State.writeBuf_x (i : BufOperand) (b : Bytes) : (s.writeBuf i b).x = s.x := by cases i <;> rfl
@[simp] theorem State.writeBuf_e (i : BufOperand) (b : Bytes) : (s.writeBuf i b).e = s.e := by cases i <;> rfl
@[simp] theorem State.writeBuf_r (i : BufOperand) (b : Bytes) : (s.writeBuf i b).r = s.r := by cases i <;> rfl
@[simp] theorem State.writeBuf_out (i : BufOperand) (b : Bytes) : (s.writeBuf i b).out = s.out := by cases i <;> rfl
@[simp] theorem State.writeBuf_cm (i : BufOperand) (b : Bytes) : (s.writeBuf i b).cm = s.cm := by cases i <;> rfl
@[simp] theorem State.writeBuf_status (i : BufOperand) (b : Bytes) : (s.writeBuf i b).status = s.status := by cases i <;> rfl
@[simp] theorem State.writeBuf_pending (i : BufOperand) (b : Bytes) : (s.writeBuf i b).pending = s.pending := by cases i <;> rfl
@[simp] theorem State.writeBuf_responses (i : BufOperand) (b : Bytes) : (s.writeBuf i b).responses = s.responses := by cases i <;> rfl
@[simp] theorem State.writeBuf_trace (i : BufOperand) (b : Bytes) : (s.writeBuf i b).trace = s.trace := by cases i <;> rfl
@[simp] theorem State.writeBuf_draws (i : BufOperand) (b : Bytes) : (s.writeBuf i b).draws = s.draws := by cases i <;> rfl

@[simp] theorem State.readBuf_writeBuf (i j : BufOperand) (b : Bytes) :
    (s.writeBuf i b).readBuf j = if j = i then some b else s.readBuf j := by cases i <;> cases j <;> rfl

@[simp] theorem State.readInt_writeBuf (i : BufOperand) (b : Bytes) (j : IntOperand) :
    (s.writeBuf i b).readInt j = s.readInt j := by cases i <;> cases j <;> rfl

/-! ### The operand registers seen through the updates of a command -/

@[simp] theorem State.beginCommand_readInt (i : IntOperand) : (s.beginCommand).readInt i = s.readInt i := by cases i <;> rfl
@[simp] theorem State.beginCommand_readBuf (i : BufOperand) : (s.beginCommand).readBuf i = s.readBuf i := by cases i <;> rfl
@[simp] theorem State.fail_readInt (c : Failure) (i : IntOperand) : (s.fail c).readInt i = s.readInt i := by cases i <;> rfl
@[simp] theorem State.fail_readBuf (c : Failure) (i : BufOperand) : (s.fail c).readBuf i = s.readBuf i := by cases i <;> rfl
@[simp] theorem State.done_readInt (i : IntOperand) : (s.done).readInt i = s.readInt i := by cases i <;> rfl
@[simp] theorem State.done_readBuf (i : BufOperand) : (s.done).readBuf i = s.readBuf i := by cases i <;> rfl
@[simp] theorem State.setCm_readInt (m : CompositeModulus) (i : IntOperand) : (s.setCm m).readInt i = s.readInt i := by cases i <;> rfl
@[simp] theorem State.setCm_readBuf (m : CompositeModulus) (i : BufOperand) : (s.setCm m).readBuf i = s.readBuf i := by cases i <;> rfl
@[simp] theorem State.setR_readInt (v : Nat) (i : IntOperand) : (s.setR v).readInt i = s.readInt i := by cases i <;> rfl
@[simp] theorem State.setR_readBuf (v : Nat) (i : BufOperand) : (s.setR v).readBuf i = s.readBuf i := by cases i <;> rfl
@[simp] theorem State.setOut_readInt (b : Bytes) (i : IntOperand) : (s.setOut b).readInt i = s.readInt i := by cases i <;> rfl
@[simp] theorem State.setOut_readBuf (b : Bytes) (i : BufOperand) : (s.setOut b).readBuf i = s.readBuf i := by cases i <;> rfl
@[simp] theorem State.record_readInt (calls : List PortCall) (i : IntOperand) : (s.record calls).readInt i = s.readInt i := by cases i <;> rfl
@[simp] theorem State.record_readBuf (calls : List PortCall) (i : BufOperand) : (s.record calls).readBuf i = s.readBuf i := by cases i <;> rfl
@[simp] theorem State.drawn_readInt (count : Nat) (i : IntOperand) : (s.drawn count).readInt i = s.readInt i := by cases i <;> rfl
@[simp] theorem State.drawn_readBuf (count : Nat) (i : BufOperand) : (s.drawn count).readBuf i = s.readBuf i := by cases i <;> rfl
@[simp] theorem State.respond_readInt (a : Response) (i : IntOperand) : (s.respond a).readInt i = s.readInt i := by cases i <;> rfl
@[simp] theorem State.respond_readBuf (a : Response) (i : BufOperand) : (s.respond a).readBuf i = s.readBuf i := by cases i <;> rfl
@[simp] theorem State.take_readInt (rest : List Transaction) (i : IntOperand) : (s.take rest).readInt i = s.readInt i := by cases i <;> rfl
@[simp] theorem State.take_readBuf (rest : List Transaction) (i : BufOperand) : (s.take rest).readBuf i = s.readBuf i := by cases i <;> rfl

/-! ### Recording port calls -/

@[simp] theorem State.record_nil : s.record [] = s := by simp [State.record]

theorem State.record_record (c d : List PortCall) : (s.record c).record d = s.record (c ++ d) := by
  simp only [State.record, List.append_assoc]

end Sys2Proof.Machine
end

