-- ==== Sys2Proof/Laws/Commands.lean ====
section
/-! SUPPORT. Everything each command can do: if it answers a next state, that state is one of those listed. -/

namespace Sys2Proof.Machine

/-- `exec` is `commandIn` at the machine's build. -/
theorem exec_eq_commandIn (i : Instr) (s : State) : exec i s = commandIn Config.build i s := by
  cases i <;> rfl

/-- `CM_LOAD` fails and nothing else happens, or it latches four positive numbers (41_crt_modpow.md R121, R122). -/
theorem execCmLoad_cases (s : State) :
    (∃ c, execCmLoad s = .next (s.beginCommand.fail c)) ∨
      ∃ n p q gf, s.n = some n ∧ s.p = some p ∧ s.q = some q ∧ s.gf = some gf ∧
        n ≠ 0 ∧ p ≠ 0 ∧ q ≠ 0 ∧ gf ≠ 0 ∧
        execCmLoad s = .next (s.beginCommand.setCm { n := n, p := p, q := q, gf := gf }).done := by
  unfold execCmLoad
  simp only
  split
  · next n p q gf hn hp hq hgf =>
    split
    · exact .inl ⟨_, rfl⟩
    · next h =>
      push Not at h
      exact .inr ⟨n, p, q, gf, hn, hp, hq, hgf, h.1, h.2.1, h.2.2.1, h.2.2.2, rfl⟩
  · exact .inl ⟨_, rfl⟩

/-- `CRT_MODPOW` fails before any port call, or stops on a modulus below 2 that is not 1, or writes `R`
(41_crt_modpow.md R126, R128). -/
theorem execCrtModpow_cases (s : State) :
    (∃ c, execCrtModpow s = .next (s.beginCommand.fail c)) ∨
      ∃ m x exp, s.cm = some m ∧ s.x = some x ∧ s.e = some exp ∧ m.p ≠ 1 ∧ m.q ≠ 1 ∧
        execCrtModpow s =
          if m.p < 2 ∨ m.q < 2 then .fault .modulusBelowTwo
          else .next ((s.beginCommand.record
            [.modExp x (exp % (m.p - 1)) m.p, .modExp x (exp % (m.q - 1)) m.q]).setR
              (garner m.p m.q m.gf (x ^ (exp % (m.p - 1)) % m.p) (x ^ (exp % (m.q - 1)) % m.q))).done := by
  unfold execCrtModpow
  simp only [crtPower_eq]
  split
  · next m x exp hm hx he =>
    split
    · exact .inl ⟨_, rfl⟩
    · next h =>
      push Not at h
      refine .inr ⟨m, x, exp, hm, hx, he, h.1, h.2, ?_⟩
      by_cases hpq : m.p < 2 ∨ m.q < 2 <;> simp only [hpq, if_true, if_false]
  · exact .inl ⟨_, rfl⟩

/-- `MGF1` fails before any port call, or writes the mask to `OUT` (42_mgf1.md R145). -/
theorem mgf1Command_cases (B : Build) (len : Nat) (s : State) :
    (∃ c, mgf1Command B len s = .next (s.beginCommand.fail c)) ∨
      ∃ seed, s.inp = some seed ∧ len ≤ B.cap ∧
        mgf1Command B len s =
          .next ((s.beginCommand.record (mgf1 B seed len).2).setOut (mgf1 B seed len).1).done := by
  unfold mgf1Command
  simp only
  split
  · next seed hs =>
    split
    · exact .inl ⟨_, rfl⟩
    · next h => exact .inr ⟨seed, hs, by omega, rfl⟩
  · exact .inl ⟨_, rfl⟩

/-- The state a successful `OAEP_PAD` leaves (43_oaep.md R156): the label hash, one draw, the masks. -/
def paddedState (B : Build) (s : State) (k : Nat) (m label : Bytes) : State :=
  let em := oaepMask B (s.randAnswer B B.hlen) (dataBlock B k (B.hash (label ++ [0x00#8])) m)
  (((((s.beginCommand.record [.hash (label ++ [0x00#8])]).drawn B.hlen).record em.2).setOut em.1)).done

/-- `OAEP_PAD` fails before any port call, or writes the padded message to `OUT` (43_oaep.md R156). -/
theorem oaepPadCommand_cases (B : Build) (s : State) :
    (∃ c, oaepPadCommand B s = .next (s.beginCommand.fail c)) ∨
      ∃ n m label, s.n = some n ∧ s.inp = some m ∧ s.lbl = some label ∧ m.length + 2 * B.hlen + 2 ≤ bytelen n ∧
        oaepPadCommand B s = .next (paddedState B s (bytelen n) m label) := by
  unfold oaepPadCommand
  simp only
  split
  · next n m label hn hm hl =>
    split
    · exact .inl ⟨_, rfl⟩
    · next h =>
      refine .inr ⟨n, m, label, hn, hm, hl, ?_, rfl⟩
      simp only [msgTooLong, decide_eq_true_eq] at h
      omega
  · exact .inl ⟨_, rfl⟩

/-- `DB` is `HLEN + k - len(M) - 2*HLEN - 2 + 1 + len(M) = k - HLEN - 1` bytes long (43_oaep.md R155). -/
theorem dataBlock_length (B : Build) (k : Nat) (lHash m : Bytes) (hl : lHash.length = B.hlen)
    (h : m.length + 2 * B.hlen + 2 ≤ k) : (dataBlock B k lHash m).length = k - B.hlen - 1 := by
  simp [dataBlock, hl]
  omega

/-- The padding that meets the length rule runs to the padded state (43_oaep.md R156). -/
theorem oaepPadCommand_next {B : Build} {s : State} {n : Nat} {m label : Bytes} (hn : s.n = some n) (hm : s.inp = some m)
    (hl : s.lbl = some label) (hk : m.length + 2 * B.hlen + 2 ≤ bytelen n) :
    oaepPadCommand B s = .next (paddedState B s (bytelen n) m label) := by
  have short : msgTooLong B (bytelen n) m = false := by
    simp only [msgTooLong, decide_eq_false_iff_not]
    omega
  unfold oaepPadCommand
  simp only [State.beginCommand_n, State.beginCommand_inp, State.beginCommand_lbl, hn, hm, hl, short]
  rfl

/-- The port calls an unpad can have made when it fails: none, the masks, or the masks and the label's hash
(43_oaep.md R175). -/
def unpadFailureCalls (B : Build) (s : State) : List (List PortCall) :=
  match s.inp, s.lbl with
  | some em, some label =>
    [[], (oaepUnmask B em).2, (oaepUnmask B em).2 ++ [.hash (label ++ [0x00#8])]]
  | _, _ => [[]]

/-- `OAEP_UNPAD` fails after one of those sequences of calls, or writes to `OUT` a message that stands behind the marker of
the recovered DB, whose label hash matches (43_oaep.md R170). -/
theorem oaepUnpadCommand_cases (B : Build) (s : State) :
    (∃ c, ∃ calls ∈ unpadFailureCalls B s, oaepUnpadCommand B s = .next ((s.beginCommand.record calls).fail c)) ∨
      ∃ em label m, s.inp = some em ∧ s.lbl = some label ∧ 2 * B.hlen + 2 ≤ em.length ∧ em.head? = some 0x00#8 ∧
        findMessage B (oaepUnmask B em).1.2 = .ok m ∧
        (oaepUnmask B em).1.2.take B.hlen = B.hash (label ++ [0x00#8]) ∧
        oaepUnpadCommand B s =
          .next (((s.beginCommand.record (oaepUnmask B em).2).record [.hash (label ++ [0x00#8])]).setOut m).done := by
  have quiet : s.beginCommand = s.beginCommand.record [] := (State.record_nil _).symm
  have silent : [] ∈ unpadFailureCalls B s := by unfold unpadFailureCalls; split <;> simp
  unfold oaepUnpadCommand
  simp only
  split
  · next em label he hl =>
    have he' : s.inp = some em := he
    have hl' : s.lbl = some label := hl
    split
    · exact .inl ⟨_, [], silent, by rw [← quiet]⟩
    · split
      · exact .inl ⟨_, [], silent, by rw [← quiet]⟩
      · next hk h0 =>
        split
        · exact .inl ⟨_, (oaepUnmask B em).2, by simp [unpadFailureCalls, he', hl'], rfl⟩
        · next m hm =>
          split
          · exact .inl ⟨.padLabel, (oaepUnmask B em).2 ++ [.hash (label ++ [0x00#8])],
              by simp [unpadFailureCalls, he', hl'], by rw [State.record_record, labelHash_snd]⟩
          · next hh => exact .inr ⟨em, label, m, he, hl, by omega, not_not.mp h0, hm, not_not.mp hh, rfl⟩
  · exact .inl ⟨_, [], silent, by rw [← quiet]⟩

/-- An input that passes the five checks unpads (43_oaep.md R170). -/
theorem oaepUnpadCommand_next {B : Build} {s : State} {em label m : Bytes} (he : s.inp = some em) (hl : s.lbl = some label)
    (hk : 2 * B.hlen + 2 ≤ em.length) (h0 : em.head? = some 0x00#8) (hm : findMessage B (oaepUnmask B em).1.2 = .ok m)
    (hh : (oaepUnmask B em).1.2.take B.hlen = B.hash (label ++ [0x00#8])) :
    oaepUnpadCommand B s =
      .next (((s.beginCommand.record (oaepUnmask B em).2).record [.hash (label ++ [0x00#8])]).setOut m).done := by
  unfold oaepUnpadCommand
  simp only [State.beginCommand_inp, State.beginCommand_lbl, he, hl]
  rw [if_neg (by omega), if_neg (by simp [h0]), hm]
  simp only
  rw [if_neg (by simp [hh])]
  rfl

end Sys2Proof.Machine
end

