-- ==== Sys2Proof/Laws/Decode.lean ====
section
/-! SUPPORT. The command word's fields as numbers, and what the decoder can answer (30_encoding.md R80, R83, R91). -/

namespace Sys2Proof

theorem opc_eq (w : Word) : opc w = w.toNat % 256 := by
  simp [opc, BitVec.extractLsb'_toNat]

theorem imm24_eq (w : Word) : imm24 w = w.toNat / 256 := by
  have h := w.isLt
  simp only [imm24, BitVec.extractLsb'_toNat, Nat.shiftRight_eq_div_pow]
  omega

theorem toNat_eq_imm24_opc (w : Word) : w.toNat = imm24 w * 256 + opc w := by
  rw [opc_eq, imm24_eq]
  omega

theorem imm24_lt (w : Word) : imm24 w < 2 ^ 24 := (w.extractLsb' 8 24).isLt

/-- Everything the decoder of a format C0 row can answer. -/
theorem decodeC0_eq_ok {i j : Instr} {imm : Nat} : decodeC0 i imm = .ok j ↔ imm = 0 ∧ i = j := by
  unfold decodeC0
  split <;> simp_all

/-- Everything the decoder can accept: one row of the table each (30_encoding.md R86). -/
theorem decode_cases {w : Word} {i : Instr} (h : decode w = .ok i) :
    (i = .cmLoad ∧ opc w = 1 ∧ imm24 w = 0) ∨ (i = .crtModpow ∧ opc w = 2 ∧ imm24 w = 0) ∨
      (i = .mgf1 (imm24 w) ∧ opc w = 3) ∨ (i = .oaepPad ∧ opc w = 4 ∧ imm24 w = 0) ∨
      (i = .oaepUnpad ∧ opc w = 5 ∧ imm24 w = 0) := by
  unfold decode at h
  split at h <;> simp_all [decodeC0_eq_ok]

end Sys2Proof
end

