-- ==== Sys2Proof/Laws/PerInstr.lean ====
section
/-! SUPPORT. Facts about every command as syntax, one lemma per constructor (LAWS.json "per_instruction"). -/

/-- Family OpcodeField: a well-formed command's word carries in `w[7:0]` the opcode of its row and in `w[31:8]` its
length, or 0 where it has none (30_encoding.md R83, R86). -/
def Sys2Proof.Laws.OpcodeField.Statement (i : Sys2Proof.Instr) : Prop :=
  i.WellFormed →
    match i with
    | .cmLoad => Sys2Proof.opc (Sys2Proof.encode i) = 0x01 ∧ Sys2Proof.imm24 (Sys2Proof.encode i) = 0
    | .crtModpow => Sys2Proof.opc (Sys2Proof.encode i) = 0x02 ∧ Sys2Proof.imm24 (Sys2Proof.encode i) = 0
    | .mgf1 len => Sys2Proof.opc (Sys2Proof.encode i) = 0x03 ∧ Sys2Proof.imm24 (Sys2Proof.encode i) = len
    | .oaepPad => Sys2Proof.opc (Sys2Proof.encode i) = 0x04 ∧ Sys2Proof.imm24 (Sys2Proof.encode i) = 0
    | .oaepUnpad => Sys2Proof.opc (Sys2Proof.encode i) = 0x05 ∧ Sys2Proof.imm24 (Sys2Proof.encode i) = 0

theorem Sys2Proof.Laws.OpcodeField.cmLoad : Sys2Proof.Laws.OpcodeField.Statement .cmLoad := fun _ => by decide

theorem Sys2Proof.Laws.OpcodeField.crtModpow : Sys2Proof.Laws.OpcodeField.Statement .crtModpow := fun _ => by decide

theorem Sys2Proof.Laws.OpcodeField.mgf1 (len : Nat) : Sys2Proof.Laws.OpcodeField.Statement (.mgf1 len) := by
  intro h
  have hlen : len < 2 ^ 24 := by simpa [Sys2Proof.Instr.WellFormed, Sys2Proof.Instr.wellFormed] using h
  show Sys2Proof.opc _ = 3 ∧ Sys2Proof.imm24 _ = len
  rw [Sys2Proof.opc_eq, Sys2Proof.imm24_eq]
  simp only [Sys2Proof.encode, BitVec.toNat_ofNat]
  omega

theorem Sys2Proof.Laws.OpcodeField.oaepPad : Sys2Proof.Laws.OpcodeField.Statement .oaepPad := fun _ => by decide

theorem Sys2Proof.Laws.OpcodeField.oaepUnpad : Sys2Proof.Laws.OpcodeField.Statement .oaepUnpad := fun _ => by decide
end

