-- ==== Sys2Proof/Laws/Safety.lean ====
section
/-! SUPPORT. The terms claims are stated with agree with the machine's own operations. -/

namespace Sys2Proof.Machine

/-- Unmasking recovers the DB of `recovered` with the same port calls (43_oaep.md R170, R174). -/
theorem oaepUnmask_eq_recovered (em : Bytes) :
    (oaepUnmask Config.build em).1.2 = (recovered em).1 ∧ (oaepUnmask Config.build em).2 = (recovered em).2 := by
  have rest : slice em (Config.build.hlen + 1) (em.length - Config.build.hlen - 1) = em.drop (Config.build.hlen + 1) := by
    rw [slice, List.take_of_length_le]
    simp only [List.length_drop]
    omega
  constructor <;> simp only [oaepUnmask, recovered, rest] <;> rfl

/-- What masking hides, `recovered` finds (43_oaep.md R174). -/
theorem recovered_oaepMask (seed db : Bytes) (hs : seed.length = Config.build.hlen) :
    (recovered (oaepMask Config.build seed db).1).1 = db := by
  rw [← (oaepUnmask_eq_recovered _).1, oaepUnmask_oaepMask _ _ _ hs]

end Sys2Proof.Machine
end

