-- ==== Sys2Proof/Laws/Transfers.lean ====
section
/-! SUPPORT. Everything a transaction at the port can do (40_host_transfers.md R100 to R108). -/

namespace Sys2Proof.Machine

/-- An id names a register exactly when it is that register's id (10_state.md R37). -/
theorem Reg.ofId_id (reg : Reg) : Reg.ofId reg.id = some reg := by
  cases reg with
  | intOperand i => cases i <;> rfl
  | bufOperand i => cases i <;> rfl
  | _ => rfl

/-- Everything a write of a register other than `CMD` can do: refuse, or replace that one register. -/
theorem hostWrite_cases (B : Build) (reg : Reg) (payload : Payload) (s : State) :
    hostWrite B reg payload s = s.respond .error ∨
      (∃ i b, reg = .intOperand i ∧ payload = .bytes b ∧ b.length ≤ B.cap ∧
        hostWrite B reg payload s = (s.writeInt i (bytesToInt b)).respond .okay) ∨
      ∃ i b, reg = .bufOperand i ∧ payload = .bytes b ∧ b.length ≤ B.cap ∧
        hostWrite B reg payload s = (s.writeBuf i b).respond .okay := by
  unfold hostWrite
  split
  · next i b =>
    split
    · exact .inl rfl
    · next h => exact .inr (.inl ⟨i, b, rfl, rfl, by omega, rfl⟩)
  · next i b =>
    split
    · exact .inl rfl
    · next h => exact .inr (.inr ⟨i, b, rfl, rfl, by omega, rfl⟩)
  · exact .inl rfl

/-- Everything a transaction can do: run a command word, take the reset input, write one operand register, or only answer. -/
theorem transact_cases (B : Build) (run : Instr → State → Result) (t : Transaction) (s : State) :
    (t = .reset ∧ transact B run t s = .next s.resetInput) ∨
      (∃ w, t = .wr 0x10 (.word w) ∧ transact B run t s = runWord run w (s.respond .okay)) ∨
      (∃ a, transact B run t s = .next (s.respond a)) ∨
      (∃ i b, b.length ≤ B.cap ∧ transact B run t s = .next ((s.writeInt i (bytesToInt b)).respond .okay)) ∨
      ∃ i b, b.length ≤ B.cap ∧ transact B run t s = .next ((s.writeBuf i b).respond .okay) := by
  cases t with
  | reset => exact .inl ⟨rfl, rfl⟩
  | rd id => exact .inr (.inr (.inl ⟨_, rfl⟩))
  | wr id payload =>
    simp only [transact]
    split
    · next w hid =>
      have h10 : id = 0x10 := by
        unfold Reg.ofId at hid
        split at hid <;> simp_all
      exact .inr (.inl ⟨w, by rw [h10], rfl⟩)
    · next reg _ _ =>
      rcases hostWrite_cases B reg _ s with h | ⟨i, b, -, -, hb, h⟩ | ⟨i, b, -, -, hb, h⟩
      · exact .inr (.inr (.inl ⟨_, by rw [h]⟩))
      · exact .inr (.inr (.inr (.inl ⟨i, b, hb, by rw [h]⟩)))
      · exact .inr (.inr (.inr (.inr ⟨i, b, hb, by rw [h]⟩)))
    · exact .inr (.inr (.inl ⟨_, rfl⟩))

/-- A step with a transaction pending is that transaction, taken from the queue. -/
theorem step_of_pending {s : State} {t : Transaction} {rest : List Transaction} (h : s.pending = t :: rest) :
    step s = transact Config.build exec t (s.take rest) := by
  simp only [step, runPort, h]

/-- A step with none pending leaves OCB idle (60_exceptions.md R213). -/
theorem step_of_idle {s : State} (h : s.pending = []) : step s = .next s := by
  simp only [step, runPort, h]

end Sys2Proof.Machine
end

