-- ==== Sys2Proof/Tests/Slice0.lean ====
section
/-! SUPPORT. The model's own tests: ill-formed terms refused, words written out bit by bit, the spec's vectors with its toy
hash, and for each statement a state and operands that meet its hypotheses. -/

namespace Sys2Proof.Tests

open Sys2Proof Sys2Proof.Machine

/-! ### WellFormed and decode -/

/-- A length of `2^24` does not fit `IMM24` (30_encoding.md R83); `2^24 - 1` does. -/
theorem test_illformed_mgf1_length : ¬ (Instr.mgf1 (2 ^ 24)).WellFormed ∧ (Instr.mgf1 (2 ^ 24 - 1)).WellFormed := by decide

/-- Pattern C0 of 30_encoding.md R83 with `OPC` 0x01. -/
theorem test_decode_cmLoad : decode 0b00000000000000000000000000000001#32 = .ok .cmLoad := rfl

/-- Pattern C0 with `OPC` 0x02. -/
theorem test_decode_crtModpow : decode 0b00000000000000000000000000000010#32 = .ok .crtModpow := rfl

/-- Pattern CL with `OPC` 0x03 and `L` = 0x800005, both ends of `IMM24`. -/
theorem test_decode_mgf1 : decode 0b10000000000000000000010100000011#32 = .ok (.mgf1 0x800005) := rfl

/-- Pattern C0 with `OPC` 0x04. -/
theorem test_decode_oaepPad : decode 0b00000000000000000000000000000100#32 = .ok .oaepPad := rfl

/-- Pattern C0 with `OPC` 0x05. -/
theorem test_decode_oaepUnpad : decode 0b00000000000000000000000000000101#32 = .ok .oaepUnpad := rfl

/-- 30_encoding.md R87 at its edges: `OPC` 0x00, 0x06, 0xFF, and `IMM24 != 0` at its lowest and highest bit. -/
theorem test_decode_illegal :
    decode 0x00000000#32 = .error .unassignedOpcode ∧ decode 0x00000006#32 = .error .unassignedOpcode ∧
    decode 0xFFFFFFFF#32 = .error .unassignedOpcode ∧ decode 0x00000101#32 = .error .immediateNotZero ∧
    decode 0x80000004#32 = .error .immediateNotZero := ⟨rfl, rfl, rfl, rfl, rfl⟩

theorem test_decodeTableWord : decodeTableWord 32 0x00000503 = some (.mgf1 5) ∧ decodeTableWord 32 0x00000102 = none :=
  ⟨rfl, rfl⟩

/-! ### A build to check the vectors with: `Toy_h` of 95_test_vectors.md section 2, CAP = 2500 -/

def toyHash (h : Nat) (b : Bytes) : Bytes :=
  (List.range h).map fun j =>
    BitVec.ofNat 8 (0x5A + 0x1D * j + 7 * b.length + (b.zipIdx.map fun x => (x.2 + j + 1) * x.1.toNat).sum)

/-- `Toy2`, with a `Rand` that answers `draw` (zeros after it). -/
def toy2 (draw : Bytes) : Build where
  hlen := 2
  cap := 2500
  hash := toyHash 2
  rand _ count := (draw ++ zeros count).take count
  hlen_pos := by decide
  cap_pos := by decide
  cap_lt := by decide
  hash_length := by simp [toyHash]
  rand_length := by simp

/-- What a command leaves, if it answers a next state. -/
def after {α : Type} (r : Result) (view : State → α) : Option α :=
  match r with
  | .next t => some (view t)
  | .fault _ => none
  | .refused _ => none

/-- 95_test_vectors.md section 2, spot values. -/
theorem test_toyHash : toyHash 2 [0x74, 0x65, 0x73, 0x74, 0x00] = [0xE4, 0xC1] ∧ toyHash 1 [0x78, 0x00] = [0xE0] := by decide

def keyed (n p q gf : Nat) : State := { State.reset with n := some n, p := some p, q := some q, gf := some gf }

def latched (n p q gf x e : Nat) : State :=
  { State.reset with cm := some { n := n, p := p, q := q, gf := gf }, x := some x, e := some e }

def hiMsg : Bytes := [0x68, 0x69, 0x21]

def testLabel : Bytes := [0x74, 0x65, 0x73, 0x74]

def v30Padded : Bytes := [0x00, 0x40, 0x6B, 0x40, 0xE7, 0xAA, 0x2C, 0xD8, 0x5D, 0x97]

def toPad (n : Nat) (m label : Bytes) : State := { State.reset with n := some n, inp := some m, lbl := some label }

def toUnpad (em label : Bytes) : State := { State.reset with inp := some em, lbl := some label }

/-- V10. -/
theorem test_cmLoad_latches :
    after (exec .cmLoad (keyed 3233 61 53 38)) (fun t => (t.cm, t.status)) =
      some (some { n := 3233, p := 61, q := 53, gf := 38 }, 0x00000001#32) := by decide

/-- V11: GF = 0 after a load leaves the first `CM`. -/
theorem test_cmLoad_zero_keeps_cm :
    after (exec .cmLoad { keyed 3233 61 53 0 with cm := some { n := 3233, p := 61, q := 53, gf := 38 } })
      (fun t => (t.cm, t.status)) = some (some { n := 3233, p := 61, q := 53, gf := 38 }, 0x00000512#32) := by decide

/-- V13: a - b is negative. -/
theorem test_crtModpow_v13 :
    after (exec .crtModpow (latched 3233 61 53 38 2790 413)) (fun t => (t.r, t.status, t.trace)) =
      some (some 65, 0x00000001#32, [.modExp 2790 53 61, .modExp 2790 49 53]) := by decide

/-- V14: the value differs from `3^2 mod 15 = 9`. -/
theorem test_crtModpow_v14 : after (exec .crtModpow (latched 15 3 5 2 3 2)) (·.r) = some (some 4) := by decide

/-- V20: three hashes, the last byte dropped. -/
theorem test_mgf1_v20 :
    after (commandIn (toy2 []) (.mgf1 5) { State.reset with inp := some [0x01, 0x02, 0x03] }) (fun t => (t.out, t.trace)) =
      some (some [0x99, 0xBC, 0xA0, 0xC4, 0xA7],
        [.hash [1, 2, 3, 0, 0, 0, 0], .hash [1, 2, 3, 0, 0, 0, 1], .hash [1, 2, 3, 0, 0, 0, 2]]) := by decide

/-- V26 and the last length that is not out of range: `CAP`. -/
theorem test_mgf1_cap :
    after (commandIn (toy2 []) (.mgf1 2501) { State.reset with inp := some [0x01] }) (·.status) = some 0x00000312#32 := by
  decide

/-- V30 with the port trace of 43_oaep.md R162. -/
theorem test_oaepPad_v30 :
    after (commandIn (toy2 [0xAA, 0xBB]) .oaepPad (toPad 0xA1B2C3D4E5F60718293B hiMsg testLabel))
      (fun t => (t.out, t.status, t.draws, t.trace.length, t.trace.getLast?)) =
      some (some v30Padded, 0x00000001#32, 1, 7,
        some (.hash [0x40, 0xE7, 0xAA, 0x2C, 0xD8, 0x5D, 0x97, 0x00, 0x00, 0x00, 0x00])) := by decide

/-- V35: `0 > 5 - 6`, the comparison is over the integers. -/
theorem test_oaepPad_v35 :
    after (commandIn (toy2 []) .oaepPad (toPad 0xFFFFFFFFFF [] [])) (fun t => (t.out, t.status, t.trace)) =
      some (none, 0x00000412#32, []) := by decide

/-- V40. -/
theorem test_oaepUnpad_v40 :
    after (commandIn (toy2 []) .oaepUnpad (toUnpad v30Padded testLabel)) (fun t => (t.out, t.status)) =
      some (some hiMsg, 0x00000001#32) := by decide

/-- V47: a 0x02 before the first 0x01; V51: a wrong label hash is not reported when the message is empty. -/
theorem test_oaepUnpad_v47_v51 :
    after (commandIn (toy2 []) .oaepUnpad (toUnpad [0x00, 0x8F, 0x95, 0x40, 0xE7, 0xAA, 0x2F, 0xB1, 0x5C, 0xDF] testLabel))
      (·.status) = some 0x00001232#32 ∧
    after (commandIn (toy2 []) .oaepUnpad (toUnpad [0x00, 0x15, 0xBC, 0xB5, 0x04, 0xAA, 0x2D, 0xB0, 0x34, 0xB7] testLabel))
      (·.status) = some 0x00001332#32 := by decide

/-! ### The port -/

/-- The state after reset with the host's transactions queued. -/
def queued (ts : List Transaction) : State := { State.reset with pending := ts }

/-- V08: the write-only register, a reserved id, and a read-only register are refused. -/
theorem test_refusals :
    after (step (queued [.rd 0x10])) (·.responses) = some [.error] ∧
    after (step (queued [.rd 0x07])) (·.responses) = some [.error] ∧
    after (step (queued [.wr 0x11 (.word 0#32)])) (·.responses) = some [.error] ∧
    after (step (queued [.wr 0x10 (.bytes [0x01])])) (·.responses) = some [.error] := by decide

/-- V0C and V07: `VALID` after `WR IN, ""`, and after reset. -/
theorem test_valid_view :
    after (runPort (toy2 []) exec { queued [.rd 0x12] with inp := some [] }) (·.responses) =
      some [.data (.word 0x00000300#32)] ∧
    after (runPort (toy2 []) exec (queued [.rd 0x12])) (·.responses) = some [.data (.word 0x00000200#32)] := by decide

/-- V07 in the `Toy2` build: `RD HLENR` and `RD CAPR` answer 2 and 2500. -/
theorem test_parameter_views :
    after (runPort (toy2 []) exec (queued [.rd 0x13])) (·.responses) = some [.data (.word 2#32)] ∧
    after (runPort (toy2 []) exec (queued [.rd 0x14])) (·.responses) = some [.data (.word 2500#32)] := by decide

/-- 40_host_transfers.md R101: `WR P, 00 3D` sets `P` to 61; V0D: `WR E, ""` sets 0. -/
theorem test_write_integer :
    after (runPort (toy2 []) exec (queued [.wr 0x01 (.bytes [0x00, 0x3D])])) (·.p) = some (some 61) ∧
    after (runPort (toy2 []) exec (queued [.wr 0x05 (.bytes [])])) (·.e) = some (some 0) := by decide

/-- A command word the machine is given runs as its next step: with nothing written, `E_MISSING_OPERAND`. -/
theorem test_withFetchWord :
    after (step (State.reset.withFetchWord 32 0x00000002)) (fun t => (t.status, t.responses)) =
      some (0x00000212#32, [.okay]) := by decide

/-! ### Witnesses: every statement with hypotheses has a state and operands that meet them -/

/-- DecodeOfEncodeIsTheCommand, at the last length. -/
theorem test_witness_wellFormed : (Instr.mgf1 (2 ^ 24 - 1)).WellFormed := by decide

/-- DecodeIsTotalAndEncodeItsInverse and WordSelectsRowByMaskAndMatch: a word for each clause. -/
theorem test_witness_decode_clauses :
    (0xFFFFFF03#32).toNat % 256 = 0x03 ∧ (2 ^ 24 - 1 : Nat) < 2 ^ 24 ∧
    (0x00000103#32 ≠ 0x00000001#32) ∧
    ((0x00000006#32 : Word) ≠ 0x00000001#32 ∧ (0x00000006#32 : Word) ≠ 0x00000002#32 ∧ (0x00000006#32).toNat % 256 ≠ 0x03 ∧
      (0x00000006#32 : Word) ≠ 0x00000004#32 ∧ (0x00000006#32 : Word) ≠ 0x00000005#32) := by decide

/-- IllegalWordsFailAndChangeNothingElse. -/
theorem test_witness_illegal :
    (queued [.wr 0x10 (.word 0x00000006#32)]).pending = .wr 0x10 (.word 0x00000006#32) :: [] ∧
    decode 0x00000006#32 = .error .unassignedOpcode := ⟨rfl, rfl⟩

/-- StepRunsTheDecodedCommand. -/
theorem test_witness_step :
    (queued [.wr 0x10 (.word 0x00000503#32)]).pending = .wr 0x10 (.word 0x00000503#32) :: [] ∧
    decode 0x00000503#32 = .ok (.mgf1 5) := ⟨rfl, rfl⟩

/-- IdleStepHoldsTheState. -/
theorem test_witness_idle : State.reset.pending = [] := rfl

/-- RegisterIdsAreTheTable: both ends of each range of ids that name nothing, and the named ids beside them. -/
theorem test_witness_ids :
    Reg.ofId 0x07 = none ∧ Reg.ofId 0x0B = none ∧ Reg.ofId 0x0F = none ∧ Reg.ofId 0x15 = none ∧ Reg.ofId 0x17 = none ∧
    Reg.ofId 0x1B = none ∧ Reg.ofId 0x0A ≠ none ∧ Reg.ofId 0x14 ≠ none ∧ Reg.ofId 0x1A ≠ none := by decide

/-- WriteIntegerOperandReplacesItsValue: the longest payload taken and the first refused. -/
theorem test_witness_write_integer :
    (∃ (s : State) (rest : List Transaction) (b : Bytes), s.pending = .wr (Reg.intOperand .e).id (.bytes b) :: rest ∧
      b.length = Config.build.cap) ∧
    ∃ (s : State) (rest : List Transaction) (b : Bytes), s.pending = .wr (Reg.intOperand .e).id (.bytes b) :: rest ∧
      b.length = Config.build.cap + 1 :=
  ⟨⟨queued [.wr 0x05 (.bytes (zeros Config.build.cap))], [], _, rfl, by simp⟩,
   ⟨queued [.wr 0x05 (.bytes (zeros (Config.build.cap + 1)))], [], _, rfl, by simp⟩⟩

/-- WriteBufferOperandReplacesItsString: the longest payload taken and the first refused. -/
theorem test_witness_write_buffer :
    (∃ (s : State) (rest : List Transaction) (b : Bytes), s.pending = .wr (Reg.bufOperand .lbl).id (.bytes b) :: rest ∧
      b.length = Config.build.cap) ∧
    ∃ (s : State) (rest : List Transaction) (b : Bytes), s.pending = .wr (Reg.bufOperand .lbl).id (.bytes b) :: rest ∧
      b.length = Config.build.cap + 1 :=
  ⟨⟨queued [.wr 0x09 (.bytes (zeros Config.build.cap))], [], _, rfl, by simp⟩,
   ⟨queued [.wr 0x09 (.bytes (zeros (Config.build.cap + 1)))], [], _, rfl, by simp⟩⟩

/-- ReadIntegerRegisterReturnsFullWidth: each clause. -/
theorem test_witness_read_integer :
    (({ queued [.rd 0x05] with e := some 7 } : State).pending = .rd (Reg.intOperand .e).id :: [] ∧
      ({ queued [.rd 0x05] with e := some 7 } : State).readInt .e = some 7) ∧
    ((queued [.rd 0x00]).pending = .rd (Reg.intOperand .n).id :: [] ∧ (queued [.rd 0x00]).readInt .n = none) ∧
    (({ queued [.rd 0x06] with r := some 7 } : State).pending = .rd 0x06 :: [] ∧
      ({ queued [.rd 0x06] with r := some 7 } : State).r = some 7) ∧
    ((queued [.rd 0x06]).pending = .rd 0x06 :: [] ∧ (queued [.rd 0x06]).r = none) := by decide

/-- ReadBufferReturnsItsBytes: the three buffers, valid and not. -/
theorem test_witness_read_buffer :
    ((0x09, some []) ∈ [(0x08, (queued [.rd 0x09]).inp), (0x09, (queued [.rd 0x09]).lbl), (0x0A, (queued [.rd 0x09]).out)] ∧
      (queued [.rd 0x09]).pending = .rd 0x09 :: []) ∧
    ((0x0A, none) ∈ [(0x08, (queued [.rd 0x0A]).inp), (0x09, (queued [.rd 0x0A]).lbl), (0x0A, (queued [.rd 0x0A]).out)] ∧
      (queued [.rd 0x0A]).pending = .rd 0x0A :: []) := by decide

/-- ReadControlRegisterReturnsItsWord. -/
theorem test_witness_read_control :
    ∃ (s : State) (w : Word), (0x1A, w) ∈ [(0x11, s.status), (0x12, s.validWord),
      (0x13, if Config.build.hlen < 2 ^ 32 then BitVec.ofNat 32 Config.build.hlen else Config.hlenrTooWide Config.build.hlen),
      (0x14, BitVec.ofNat 32 Config.build.cap), (0x18, BitVec.ofNat 32 (s.inp.getD []).length),
      (0x19, BitVec.ofNat 32 (s.lbl.getD []).length), (0x1A, BitVec.ofNat 32 (s.out.getD []).length)] ∧
      s.pending = .rd 0x1A :: [] :=
  ⟨queued [.rd 0x1A], _, by simp only [List.mem_cons]; exact .inr (.inr (.inr (.inr (.inr (.inr (.inl rfl)))))), rfl⟩

/-- The invariant holds of a state with every register in use: `CM` latched, a result and a message. -/
theorem test_witness_invariant (ts : List Transaction) :
    ({ queued ts with
      n := some 1, cm := some { n := 1, p := 1, q := 1, gf := 1 }, r := some 1, inp := some [0x00], status := 0x00000001#32 } :
      State).Inv Config.build where
  operands i v h := by
    have hc := Nat.one_lt_pow (Nat.one_le_iff_ne_zero.mp Config.build.cap_pos) (show 1 < 256 by decide)
    cases i <;> simp_all [State.readInt, queued, State.reset]
  result v h := by
    cases h
    exact Nat.one_lt_pow (by have := Config.build.cap_pos; omega) (by decide)
  buffers i b h := by
    have hc := Config.build.cap_pos
    cases i <;> simp [State.readBuf, queued, State.reset] at h <;> subst h <;> simp
    exact hc
  output b h := by cases h
  modulus m h := by
    have hc := Nat.one_lt_pow (Nat.one_le_iff_ne_zero.mp Config.build.cap_pos) (show 1 < 256 by decide)
    cases h
    exact ⟨by decide, by decide, by decide, by decide, hc, hc, hc, hc⟩
  label := by simp [queued, State.reset]
  status := by simp [legalStatus]
  honest _ := rfl
  single := .inr rfl

/-- RefusalsAreExactlyTheListedCases: a transaction in each case (a) to (f), and one in none with the invariant. -/
theorem test_witness_refusals :
    RefusedCase Config.build State.reset (.wr 0x1A (.word 0#32)) ∧
    RefusedCase Config.build State.reset (.rd 0x10) ∧
    RefusedCase Config.build State.reset (.wr 0x1B (.bytes [])) ∧ RefusedCase Config.build State.reset (.rd 0x07) ∧
    RefusedCase Config.build State.reset (.wr 0x08 (.bytes (zeros (Config.build.cap + 1)))) ∧
    RefusedCase Config.build State.reset (.rd 0x0A) ∧
    RefusedCase Config.build State.reset (.wr 0x10 (.bytes [0x01, 0x00, 0x00, 0x00])) ∧
    ¬ RefusedCase Config.build State.reset (.wr 0x08 (.bytes (zeros Config.build.cap))) := by
  simp [RefusedCase, readOnlyIds, namedIds, operandIds, State.HoldsNothing, State.reset]

/-- WordToOperandRegisterIsRefused. -/
theorem test_witness_word_to_operand :
    0x09 ∈ operandIds ∧ (queued [.wr 0x09 (.word 5#32)]).pending = .wr 0x09 (.word 5#32) :: [] := by decide

/-- IntegerReadAfterWriteGivesTheValue, at the longest payload. -/
theorem test_witness_read_after_write :
    ∃ (s : State) (b : Bytes), s.pending = .wr (Reg.intOperand .gf).id (.bytes b) :: .rd (Reg.intOperand .gf).id :: [] ∧
      b.length = Config.build.cap :=
  ⟨queued [.wr 0x03 (.bytes (zeros Config.build.cap)), .rd 0x03], _, rfl, by simp⟩

/-- ReadsAreIdempotent. -/
theorem test_witness_reads : (queued [.rd 0x11, .rd 0x11]).pending = .rd 0x11 :: .rd 0x11 :: [] := rfl

/-- OnlyCommandsAndResetWriteStatus: a command that changes `STATUS`. -/
theorem test_witness_status_written :
    after (step (queued [.wr 0x10 (.word 0#32)])) (fun t => decide (t.status ≠ (queued [.wr 0x10 (.word 0#32)]).status)) =
      some true := by decide

/-- CommandWriteIsAlwaysAnsweredOkay, NoStepStopsTheMachine and EveryStepKeepsTheInvariants: the invariant with a command
pending, and the next state of that step. -/
theorem test_witness_invariant_step :
    ∃ s t : State, s.Inv Config.build ∧ s.pending = .wr 0x10 (.word 0x00000002#32) :: [] ∧ step s = .next t :=
  ⟨_, _, test_witness_invariant [.wr 0x10 (.word 0x00000002#32)], rfl, rfl⟩

/-- ResetInputEntersTheResetState, and OnlyResetInvalidatesOperands: the reset input invalidates `N`. -/
theorem test_witness_reset_input :
    ({ queued [.reset] with n := some 5 } : State).pending = .reset :: [] ∧
    after (step { queued [.reset] with n := some 5 }) (·.n) = some none := by decide

/-- CmLoadLatchesPositiveOperands: each clause; the second and third differ in one register. -/
theorem test_witness_cmLoad :
    ((keyed 1 1 1 1).n = some 1 ∧ (keyed 1 1 1 1).gf = some 1) ∧ State.reset.n = none ∧
    ((keyed 1 1 1 0).n = some 1 ∧ (keyed 1 1 1 0).gf = some 0) := by decide

/-- CrtModpowComputesGarnersValue, CrtWithExponentZeroGivesOne: moduli 2, the least; modulus 1; a missing operand. -/
theorem test_witness_crt :
    ((latched 4 2 2 1 0 0).cm = some { n := 4, p := 2, q := 2, gf := 1 } ∧ (latched 4 2 2 1 0 0).x = some 0 ∧
      (latched 4 2 2 1 0 0).e = some 0 ∧ (2 : Nat) ≤ 2) ∧
    ((latched 2 2 1 1 0 0).cm = some { n := 2, p := 2, q := 1, gf := 1 }) ∧ State.reset.cm = none := by decide

/-- CrtModpowStopsOnAZeroModulus: each of p and q 0, beside a modulus of 2. -/
theorem test_witness_crt_zero :
    ((latched 1 0 2 1 5 3).cm = some { n := 1, p := 0, q := 2, gf := 1 } ∧ (latched 1 0 2 1 5 3).x = some 5) ∧
    ((latched 1 2 0 1 5 3).cm = some { n := 1, p := 2, q := 0, gf := 1 } ∧ (latched 1 2 0 1 5 3).e = some 3) := by decide

/-- CrtResultIsBelowPTimesQ, CrtResultDoesNotDependOnN: a power that answers a next state with a result. -/
theorem test_witness_crt_result :
    ∃ t, exec .crtModpow (latched 3233 61 53 38 2790 413) = .next t ∧ t.r = some 65 := ⟨_, rfl, by decide⟩

/-- CrtEqualsDirectPowerExactlyWhen: V14's primes 3 and 5. -/
theorem test_witness_crt_primes :
    (latched 15 3 5 2 3 2).cm = some { n := 15, p := 3, q := 5, gf := 2 } ∧ (3 : Nat).Prime ∧ (5 : Nat).Prime ∧
    (3 : Nat) ≠ 5 ∧ (15 : Nat) = 3 * 5 ∧ 2 * 5 % 3 = 1 := ⟨rfl, by decide, by decide, by decide, by decide, by decide⟩

/-- ModExpIsOnlyCalledWithModulusTwoOrMore: calls of a power, in the trace after it. -/
theorem test_witness_modExp_calls :
    ∃ t, exec .crtModpow (latched 3233 61 53 38 2790 413) = .next t ∧ .modExp 2790 53 61 ∈ t.trace := ⟨_, rfl, by decide⟩

/-- Mgf1WritesTheMaskOfIn, Mgf1MasksOfOneSeedArePrefixes: the longest length taken, the first out of range, a missing IN. -/
theorem test_witness_mgf1 :
    (∃ (s : State) (len : Nat) (seed : Bytes), s.inp = some seed ∧ len = Config.build.cap ∧ 0 ≤ len ∧ len ≤ Config.build.cap) ∧
    (∃ (s : State) (len : Nat), s.inp ≠ none ∧ len = Config.build.cap + 1 ∧ Config.build.cap < len) ∧ State.reset.inp = none :=
  ⟨⟨toUnpad [] [], Config.build.cap, [], rfl, rfl, Nat.zero_le _, le_refl _⟩,
   ⟨toUnpad [] [], Config.build.cap + 1, by simp [toUnpad], rfl, Nat.lt_succ_self _⟩, rfl⟩

/-- Mgf1LoopEqualsItsClosedForm: byte 0 of a mask of one byte. -/
theorem test_witness_mgf1_byte : (0 : Nat) < 1 := by decide

/-- A modulus whose byte length is `2*HLEN + 2 + room`. -/
def roomyModulus (room : Nat) : Nat := 256 ^ (2 * Config.build.hlen + 1 + room)

theorem bytelen_roomyModulus (room : Nat) : bytelen (roomyModulus room) = 2 * Config.build.hlen + 2 + room := by
  rw [roomyModulus, bytelen_pow]
  omega

/-- A message of `room` bytes just fits: the operands of OaepPadFollowsItsNineSteps, UnpadOfPadGivesTheMessageBack and
PaddedEmptyMessageIsRejected (`room = 0`), with the padded state they lead to. -/
theorem padding_runs (m label : Bytes) :
    exec .oaepPad (toPad (roomyModulus m.length) m label) =
      .next (paddedState Config.build (toPad (roomyModulus m.length) m label) (bytelen (roomyModulus m.length)) m label) := by
  have fits : m.length + 2 * Config.build.hlen + 2 ≤ bytelen (roomyModulus m.length) := by
    rw [bytelen_roomyModulus]
    omega
  rw [exec_eq_commandIn]
  exact oaepPadCommand_next (s := toPad (roomyModulus m.length) m label) rfl rfl rfl fits

/-- OaepPadFollowsItsNineSteps: a message that just fits, one a byte too long, a missing operand. -/
theorem test_witness_pad :
    ((toPad (roomyModulus 1) [0x2A] []).n = some (roomyModulus 1) ∧
      (([0x2A] : Bytes).length : Int) ≤ (bytelen (roomyModulus 1) : Int) - 2 * (Config.build.hlen : Int) - 2) ∧
    (bytelen (roomyModulus 0) : Int) - 2 * (Config.build.hlen : Int) - 2 < (([0x2A] : Bytes).length : Int) ∧
    State.reset.n = none := by
  refine ⟨⟨rfl, ?_⟩, ?_, rfl⟩
  · rw [bytelen_roomyModulus]
    simp
    omega
  · rw [bytelen_roomyModulus]
    simp

/-- PaddedMessageIsBelowTheModulus, PadOutputsAreEqualIffSeedsAre, PadPortTraceIsAsListed: a pad that succeeds. -/
theorem test_witness_pad_succeeds :
    ∃ (s t : State) (n : Nat) (label em : Bytes), s.n = some n ∧ s.lbl = some label ∧
      exec .oaepPad s = .next t ∧ t.status = 0x00000001#32 ∧ t.out = some em :=
  ⟨_, _, _, _, _, rfl, rfl, padding_runs [0x2A] [], rfl, rfl⟩

/-- PaddedEmptyMessageIsRejected, at the least modulus length that takes the empty message. -/
theorem test_witness_pad_empty :
    (toPad (roomyModulus 0) [] []).inp = some [] ∧ 2 * Config.build.hlen + 2 ≤ bytelen (roomyModulus 0) := by
  rw [bytelen_roomyModulus]
  exact ⟨rfl, by omega⟩

/-- UnpadOfPadGivesTheMessageBack: a message of one byte that just fits. -/
theorem test_witness_round_trip :
    (toPad (roomyModulus 1) [0x2A] []).inp = some [0x2A] ∧ 1 ≤ ([0x2A] : Bytes).length ∧
    ([0x2A] : Bytes).length + 2 * Config.build.hlen + 2 ≤ bytelen (roomyModulus 1) := by
  rw [bytelen_roomyModulus]
  exact ⟨rfl, by decide, by simp; omega⟩

/-- UnpadUnderAnotherLabelFailsAtTheLabel: `Toy2`, V30's operands and the label "wrong". -/
theorem test_witness_wrong_label :
    hiMsg.length + 2 * (toy2 []).hlen + 2 ≤ bytelen 0xA1B2C3D4E5F60718293B ∧
    (toy2 []).hash ([0x77, 0x72, 0x6F, 0x6E, 0x67] ++ [0x00#8]) ≠ (toy2 []).hash (testLabel ++ [0x00#8]) := by decide

/-- An EM that hides the data block `db`, under a seed of zeros. -/
def emHiding (db : Bytes) : Bytes := (oaepMask Config.build (zeros Config.build.hlen) db).1

theorem emHiding_length (db : Bytes) : (emHiding db).length = db.length + Config.build.hlen + 1 :=
  oaepMask_length _ _ _ (by simp)

/-- What each unpad statement asks of EM past check 2, for the EM that hides `lHash ‖ tail`. -/
theorem emHiding_recovered (lHash tail : Bytes) (hl : lHash.length = Config.build.hlen) (ht : tail ≠ []) :
    2 * Config.build.hlen + 2 ≤ (emHiding (lHash ++ tail)).length ∧ (emHiding (lHash ++ tail)).head? = some 0x00#8 ∧
    (recovered (emHiding (lHash ++ tail))).1.drop Config.build.hlen = tail ∧
    (recovered (emHiding (lHash ++ tail))).1.take Config.build.hlen = lHash := by
  have pos := List.length_pos_iff.mpr ht
  have db := recovered_oaepMask (zeros Config.build.hlen) (lHash ++ tail) (by simp)
  refine ⟨by rw [emHiding_length]; simp [hl]; omega, oaepMask_head _ _ _, ?_, ?_⟩
  · rw [emHiding, db, List.drop_append_of_le_length (by omega), List.drop_of_length_le (by omega), List.nil_append]
  · rw [emHiding, db, List.take_append_of_le_length (by omega), List.take_of_length_le (by omega)]

/-- OaepUnpadChecksTheRawInputFirst: the longest short input, the shortest other one with a wrong lead, a missing operand. -/
theorem test_witness_unpad_raw :
    (zeros (2 * Config.build.hlen + 1)).length < 2 * Config.build.hlen + 2 ∧
    (2 * Config.build.hlen + 2 ≤ ([0x01#8] ++ zeros (2 * Config.build.hlen + 1)).length ∧
      ([0x01#8] ++ zeros (2 * Config.build.hlen + 1)).head? ≠ some 0x00#8) ∧ State.reset.inp = none := by
  refine ⟨by simp, ⟨by simp, by simp⟩, rfl⟩

/-- OaepUnpadChecksTheBlockStructure: a tail 00 02 01 (no marker), and the marker as DB's last byte. -/
theorem test_witness_unpad_structure :
    (∃ em : Bytes, 2 * Config.build.hlen + 2 ≤ em.length ∧ em.head? = some 0x00#8 ∧
      ∀ z m, (recovered em).1.drop Config.build.hlen ≠ List.replicate z 0x00#8 ++ 0x01#8 :: m) ∧
    ∃ em : Bytes, 2 * Config.build.hlen + 2 ≤ em.length ∧ em.head? = some 0x00#8 ∧
      (recovered em).1.drop Config.build.hlen = List.replicate 0 0x00#8 ++ [0x01#8] := by
  obtain ⟨h1, h2, h3, -⟩ := emHiding_recovered (zeros Config.build.hlen) [0x00, 0x02, 0x01] (by simp) (by simp)
  obtain ⟨g1, g2, g3, -⟩ := emHiding_recovered (zeros Config.build.hlen) [0x01] (by simp) (by simp)
  refine ⟨⟨_, h1, h2, fun z m h => ?_⟩, ⟨_, g1, g2, g3⟩⟩
  rw [h3] at h
  rcases z with _ | _ | z <;> simp [List.replicate_succ] at h

/-- OaepUnpadReturnsTheMessage, UnpaddedMessageFitsTheInput, UnpadPortTraceTellsTheCheck: the embedded hash is the label's, and
the command succeeds. -/
theorem test_witness_unpad_succeeds :
    ∃ em : Bytes, 2 * Config.build.hlen + 2 ≤ em.length ∧ em.head? = some 0x00#8 ∧
      (recovered em).1.drop Config.build.hlen = List.replicate 0 0x00#8 ++ 0x01#8 :: [0x2A] ∧
      (recovered em).1.take Config.build.hlen = Config.build.hash ([] ++ [0x00#8]) ∧
      ∃ t, exec .oaepUnpad (toUnpad em []) = .next t ∧ t.status = 0x00000001#32 := by
  obtain ⟨h1, h2, h3, h4⟩ := emHiding_recovered (Config.build.hash ([] ++ [0x00#8])) [0x01, 0x2A]
    (Config.build.hash_length _) (by simp)
  have same := (oaepUnmask_eq_recovered (emHiding (Config.build.hash ([] ++ [0x00#8]) ++ [0x01, 0x2A]))).1
  have found : findMessage Config.build
      (oaepUnmask Config.build (emHiding (Config.build.hash ([] ++ [0x00#8]) ++ [0x01, 0x2A]))).1.2 = .ok [0x2A] := by
    rw [findMessage_marker Config.build _ [0x2A] 0 (by rw [same, h3]; rfl), if_neg (by simp)]
  refine ⟨_, h1, h2, h3, h4, _, (exec_eq_commandIn _ _).trans
    (oaepUnpadCommand_next (s := toUnpad _ []) rfl rfl h1 h2 found (by rw [same, h4])), rfl⟩

/-- OaepUnpadChecksTheLabelLast: the embedded hash differs from the label's in its first byte. -/
theorem test_witness_unpad_label :
    ∃ em : Bytes, 2 * Config.build.hlen + 2 ≤ em.length ∧ em.head? = some 0x00#8 ∧
      (recovered em).1.drop Config.build.hlen = List.replicate 0 0x00#8 ++ 0x01#8 :: [0x2A] ∧
      (recovered em).1.take Config.build.hlen ≠ Config.build.hash ([] ++ [0x00#8]) := by
  have hpos := Config.build.hlen_pos
  have hlen := Config.build.hash_length ([] ++ [0x00#8])
  cases hd : Config.build.hash ([] ++ [0x00#8]) with
  | nil => rw [hd] at hlen; simp at hlen; omega
  | cons first others =>
    obtain ⟨h1, h2, h3, h4⟩ := emHiding_recovered ((first + 1#8) :: others) [0x01, 0x2A] (by rw [← hlen, hd]; rfl) (by simp)
    refine ⟨_, h1, h2, h3, ?_⟩
    rw [h4]
    simp

/-- CommandsChangeOnlyWhatTheyWrite, FailedCommandLeavesOperandsAndCm, OnlyASuccessfulPadDrawsAndOnce,
PortCallsOfACommandAreBounded: each command answers a next state, from reset a failure. -/
theorem test_witness_failures :
    (∃ t, exec .cmLoad State.reset = .next t ∧ t.status ≠ 0x00000001#32) ∧
    (∃ t, exec .crtModpow State.reset = .next t ∧ t.status ≠ 0x00000001#32) ∧
    (∃ t, exec (.mgf1 0) State.reset = .next t ∧ t.status ≠ 0x00000001#32) ∧
    (∃ t, exec .oaepPad State.reset = .next t ∧ t.status ≠ 0x00000001#32) ∧
    (∃ t, exec .oaepUnpad State.reset = .next t ∧ t.status ≠ 0x00000001#32) :=
  ⟨⟨_, rfl, by decide⟩, ⟨_, rfl, by decide⟩, ⟨_, rfl, by decide⟩, ⟨_, rfl, by decide⟩, ⟨_, rfl, by decide⟩⟩

/-- SuccessfulCommandLeavesItsResult: `CM_LOAD` and `CRT_MODPOW` succeed (pad and unpad do above). -/
theorem test_witness_success :
    after (exec .cmLoad (keyed 3233 61 53 38)) (fun t => statusState t.status) = some 1 ∧
    after (exec .crtModpow (latched 3233 61 53 38 2790 413)) (fun t => statusState t.status) = some 1 := by decide

/-- PortCallsOfACommandAreBounded: a pad and an unpad with their operand present. -/
theorem test_witness_bounded :
    (toPad (roomyModulus 0) [] []).n = some (roomyModulus 0) ∧ (toUnpad (emHiding [0x01]) []).inp = some (emHiding [0x01]) :=
  ⟨rfl, rfl⟩

/-- CommandsDependOnlyOnTheirOperands: two states that differ in a register `MGF1` does not read. -/
theorem test_witness_same_operands :
    sameOperands (toPad 5 [0x01] []) (toPad 6 [0x01] []) (.mgf1 3) ∧ toPad 5 [0x01] [] ≠ toPad 6 [0x01] [] := by
  exact ⟨rfl, by decide⟩

/-- IntegerConversionsAreBigEndianInverses, BytelenIsTheLeastLength, ModExpPortMeetsItsContract: values at the edge. -/
theorem test_witness_numbers : (255 : Nat) < 256 ^ 1 ∧ (0 : Nat) < 256 ^ 0 ∧ (2 : Nat) ≤ 2 := by decide

/-- The examples of 00_scope.md R12, R13. -/
theorem test_numbers :
    bytelen 0 = 0 ∧ bytelen 255 = 1 ∧ bytelen 256 = 2 ∧ be32 1#32 = [0, 0, 0, 1] ∧ be32 258#32 = [0, 0, 1, 2] := by decide

end Sys2Proof.Tests
end

section
/-! PROOF. The statements of 00_scope.md: R11 (integer conversions), R12 (byte length), R7 (the `ModExp` port), and the one
stop of `CRT_MODPOW` (assumption log entry 8). -/

namespace Sys2Proof.Proofs

open Sys2Proof Sys2Proof.Machine

/-! ### R11: integer conversions -/

/-- The big-endian sum, by recursion from the most significant byte. -/
theorem bytesToInt_eq_sum (b : Bytes) :
    bytesToInt b = ∑ i : Fin b.length, b[i].toNat * 256 ^ (b.length - 1 - i) := by
  induction b with
  | nil => rfl
  | cons first b ih =>
    rw [bytesToInt_cons, ih]
    refine Eq.trans ?_ (Fin.sum_univ_succ (n := b.length) _).symm
    congr 1
    refine Finset.sum_congr rfl fun i _ => ?_
    have exponent : (first :: b).length - 1 - (i.succ : Nat) = b.length - 1 - i := by
      simp only [List.length_cons, Fin.val_succ]
      omega
    rw [exponent]
    rfl

@[simp] theorem bytesToInt_zero_cons (b : Bytes) : bytesToInt (0x00#8 :: b) = bytesToInt b := by
  simp [bytesToInt_cons]

/-- `IntToBytes(v, L)` keeps the low `L` bytes of `v`. -/
theorem bytesToInt_intToBytes (v len : Nat) : bytesToInt (intToBytes v len) = v % 256 ^ len := by
  induction len generalizing v with
  | zero => simp [intToBytes, Nat.mod_one]
  | succ len ih =>
    rw [intToBytes, bytesToInt_concat, ih, BitVec.toNat_ofNat, pow_succ' 256 len, Nat.mod_mul]
    omega

/-- A byte string is recovered from its value and its length. -/
theorem intToBytes_bytesToInt (b : Bytes) : intToBytes (bytesToInt b) b.length = b := by
  induction b using List.reverseRecOn with
  | nil => rfl
  | append_singleton b last ih =>
    have hlast := last.isLt
    have quotient : (bytesToInt b * 256 + last.toNat) / 256 = bytesToInt b := by omega
    have low : BitVec.ofNat 8 (bytesToInt b * 256 + last.toNat) = last := by
      apply BitVec.eq_of_toNat_eq
      rw [BitVec.toNat_ofNat]
      omega
    rw [List.length_append, List.length_singleton, intToBytes, bytesToInt_concat, quotient, low, ih]

/-- Settles O58: the sum by recursion on the string, the inverse by the two round trips. -/
theorem integerConversionsAreBigEndianInverses : Obligations.IntegerConversionsAreBigEndianInverses := by
  refine ⟨bytesToInt_eq_sum, bytesToInt_zero_cons, fun v len hv b => ⟨?_, ?_⟩⟩
  · rintro ⟨rfl, rfl⟩
    exact (intToBytes_bytesToInt b).symm
  · rintro rfl
    exact ⟨intToBytes_length v len, by rw [bytesToInt_intToBytes, Nat.mod_eq_of_lt hv]⟩

/-! ### R12: byte length -/

theorem bitlen_le_iff (v n : Nat) : bitlen v ≤ n ↔ v < 2 ^ n := by
  unfold bitlen
  split
  · next h => simp [h]
  · next h => exact Nat.log2_lt h

theorem bytelen_le_iff (v len : Nat) : bytelen v ≤ len ↔ v < 256 ^ len := by
  have pow : (256 : Nat) ^ len = 2 ^ (8 * len) := by rw [pow_mul]; norm_num
  rw [pow, ← bitlen_le_iff, bytelen]
  omega

/-- Settles O59: `v < 256^L` says exactly that `bytelen(v) ≤ L`. -/
theorem bytelenIsTheLeastLength : Obligations.BytelenIsTheLeastLength := fun v =>
  ⟨(bytelen_le_iff v _).mp le_rfl, fun len => (bytelen_le_iff v len).mpr⟩

/-! ### R7: the `ModExp` port, and the stop outside its contract -/

/-- Settles O60: the port's answer is the remainder of the power. -/
theorem modExpPortMeetsItsContract : Obligations.ModExpPortMeetsItsContract := by
  intro base exp modulus hmod
  refine ⟨base ^ exp % modulus, modExpPort_ok hmod, Nat.mod_lt _ (by omega), Nat.mod_modEq _ _, ?_⟩
  rintro rfl
  rw [pow_zero, Nat.mod_eq_of_lt (by omega)]

/-- With its operands present and neither modulus 1, `CRT_MODPOW` writes Garner's value after two `ModExp` calls, or stops on
a modulus below 2 (41_crt_modpow.md R126). -/
theorem execCrtModpow_of_operands {s : State} {m : CompositeModulus} {x exp : Nat} (hcm : s.cm = some m)
    (hx : s.x = some x) (he : s.e = some exp) (hp : m.p ≠ 1) (hq : m.q ≠ 1) :
    execCrtModpow s =
      if m.p < 2 ∨ m.q < 2 then .fault .modulusBelowTwo
      else .next ((s.beginCommand.record
        [.modExp x (exp % (m.p - 1)) m.p, .modExp x (exp % (m.q - 1)) m.q]).setR
          (garner m.p m.q m.gf (x ^ (exp % (m.p - 1)) % m.p) (x ^ (exp % (m.q - 1)) % m.q))).done := by
  unfold execCrtModpow
  simp only [State.beginCommand_cm, State.beginCommand_x, State.beginCommand_e, hcm, hx, he, crtPower_eq]
  rw [if_neg (not_or.mpr ⟨hp, hq⟩)]
  by_cases below : m.p < 2 ∨ m.q < 2 <;> simp only [below, if_true, if_false]

/-- Settles O31: a modulus 0 is below 2, and the invariant has `CM`'s fields positive (10_state.md R27). -/
theorem crtModpowStopsOnAZeroModulus : Obligations.CrtModpowStopsOnAZeroModulus := by
  intro s m x exp hcm hx he hp hq hzero
  have below : m.p < 2 ∨ m.q < 2 := by omega
  constructor
  · show execCrtModpow s = _
    rw [execCrtModpow_of_operands hcm hx he hp hq, if_pos below]
  · intro inv
    obtain ⟨-, p_pos, q_pos, -⟩ := inv.modulus m hcm
    omega

end Sys2Proof.Proofs
end

section
/-! PROOF. The statements of 10_state.md about single states and commands: R37 (register ids), R34 (`VALID`), R40 (reset), R41
(the frame of a command). -/

namespace Sys2Proof.Proofs

open Sys2Proof Sys2Proof.Machine

/-! ### R37: register ids -/

theorem reg_id_eq_of_ofId {id : Nat} {reg : Reg} (h : Reg.ofId id = some reg) : id = reg.id := by
  unfold Reg.ofId at h
  split at h <;> cases h <;> rfl

theorem reg_id_mem_namedIds (reg : Reg) : reg.id ∈ namedIds := by
  cases reg with
  | intOperand i => cases i <;> decide
  | bufOperand i => cases i <;> decide
  | _ => decide

theorem ofId_eq_none_of_unnamed {id : Nat} (h : id ∉ namedIds) : Reg.ofId id = none := by
  cases found : Reg.ofId id with
  | none => rfl
  | some reg => exact absurd (reg_id_eq_of_ofId found ▸ reg_id_mem_namedIds reg) h

/-- Settles O8: the named ids row by row; an id in a gap of the table is no register's id. -/
theorem registerIdsAreTheTable : Obligations.RegisterIdsAreTheTable := by
  refine ⟨rfl, rfl, rfl, rfl, rfl, rfl, rfl, rfl, rfl, rfl, rfl, rfl, rfl, rfl, rfl, rfl, rfl, rfl, fun id gap => ?_⟩
  refine ofId_eq_none_of_unnamed fun named => ?_
  simp only [namedIds, operandIds, readOnlyIds, List.cons_append, List.nil_append, List.mem_cons, List.not_mem_nil,
    or_false] at named
  omega

/-! ### R34: `VALID` -/

theorem lookup_cons_getD (k i : Nat) (v : Bool) (l : List (Nat × Bool)) :
    (((k, v) :: l).lookup i).getD false = if i = k then v else (l.lookup i).getD false := by
  rw [List.lookup_cons]
  by_cases hi : i = k
  · simp [hi]
  · simp [hi, beq_false_of_ne hi]

/-- Oring in the bit numbered `k` when `v` holds changes that bit alone. -/
theorem getLsbD_setBit (w : Word) {k : Nat} (hk : k < 32) (v : Bool) (i : Nat) :
    (if v then w ||| (1#32 <<< k) else w).getLsbD i = (w.getLsbD i || (v && decide (i = k))) := by
  cases v with
  | false => simp
  | true =>
    show (w ||| BitVec.twoPow 32 k).getLsbD i = (w.getLsbD i || (true && decide (i = k)))
    rw [BitVec.getLsbD_or, BitVec.getLsbD_twoPow]
    simp [hk, eq_comm]

/-- Folding (bit number, bit) pairs with distinct numbers into a word ors the bit found under `i` into its bit `i`. -/
theorem getLsbD_foldl_setBits (l : List (Nat × Bool)) (distinct : (l.map Prod.fst).Nodup) (fits : ∀ b ∈ l, b.1 < 32)
    (w : Word) (i : Nat) :
    (l.foldl (fun w b => if b.2 then w ||| (1#32 <<< b.1) else w) w).getLsbD i
      = (w.getLsbD i || (l.lookup i).getD false) := by
  induction l generalizing w with
  | nil => simp
  | cons b l ih =>
    obtain ⟨k, v⟩ := b
    obtain ⟨fresh, distinct⟩ := List.nodup_cons.mp distinct
    obtain ⟨k_lt, fits⟩ := List.forall_mem_cons.mp fits
    rw [List.foldl_cons, ih distinct fits, lookup_cons_getD, getLsbD_setBit w k_lt]
    by_cases hi : i = k
    · have absent : l.lookup k = none := List.lookup_eq_none_iff.mpr fun b hb =>
        bne_iff_ne.mpr fun key => fresh (List.mem_map.mpr ⟨b, hb, key.symm⟩)
      simp [hi, absent]
    · simp [hi]

theorem validWord_getLsbD (s : State) (i : Nat) : s.validWord.getLsbD i = (s.validBits.lookup i).getD false := by
  rw [State.validWord, getLsbD_foldl_setBits _ (by simp [State.validBits]) (by simp [State.validBits])]
  simp

/-- Settles O14: bit `i` of `VALID` is the valid bit listed under `i`, and 0 where none is. -/
theorem validViewShowsTheValidBits : Obligations.ValidViewShowsTheValidBits := by
  intro s i
  rw [validWord_getLsbD]
  simp only [State.validBits, lookup_cons_getD, List.lookup_nil, Option.getD_none]

/-! ### R40: reset -/

/-- Settles O21: the values of the reset state, and its views. -/
theorem resetLeavesTheListedValues : Obligations.ResetLeavesTheListedValues := by
  refine ⟨fun i => ?_, rfl, rfl, rfl, rfl, rfl, rfl, rfl, rfl, rfl, rfl, rfl, rfl, rfl, ⟨_, rfl⟩, rfl⟩
  cases i <;> rfl

/-- The reset state meets the invariant in every build. -/
theorem reset_inv (B : Build) : State.reset.Inv B where
  operands i v h := by cases i <;> cases h
  result v h := by cases h
  buffers i b h := by
    cases i with
    | inp => cases h
    | lbl => cases h; exact Nat.zero_le _
  output b h := by cases h
  modulus m h := by cases h
  label h := by cases h
  status := by decide
  honest h := by simp [State.reset] at h
  single := .inl rfl

/-- Settles O54: the invariant of the reset state at the machine's build. -/
theorem resetStateMeetsTheInvariants : Obligations.ResetStateMeetsTheInvariants := reset_inv Config.build

/-! ### R41: the frame of a command -/

/-- Settles O48: every case of each command, next state by next state. -/
theorem commandsChangeOnlyWhatTheyWrite : Obligations.CommandsChangeOnlyWhatTheyWrite := by
  intro s t
  refine ⟨fun h => ?_, fun h => ?_, fun len h => ?_, fun h => ?_, fun h => ?_⟩
  · change execCmLoad s = _ at h
    rcases execCmLoad_cases s with ⟨c, eq⟩ | ⟨n, p, q, gf, -, -, -, -, -, -, -, -, eq⟩ <;> cases eq.symm.trans h <;> rfl
  · change execCrtModpow s = _ at h
    rcases execCrtModpow_cases s with ⟨c, eq⟩ | ⟨m, x, exp, -, -, -, -, -, eq⟩
    · cases eq.symm.trans h
      rfl
    · split_ifs at eq
      · cases eq.symm.trans h
      · cases eq.symm.trans h
        rfl
  · change mgf1Command Config.build len s = _ at h
    rcases mgf1Command_cases Config.build len s with ⟨c, eq⟩ | ⟨seed, -, -, eq⟩ <;> cases eq.symm.trans h <;> rfl
  · change oaepPadCommand Config.build s = _ at h
    rcases oaepPadCommand_cases Config.build s with ⟨c, eq⟩ | ⟨n, m, label, -, -, -, -, eq⟩ <;>
      cases eq.symm.trans h <;> rfl
  · change oaepUnpadCommand Config.build s = _ at h
    rcases oaepUnpadCommand_cases Config.build s with ⟨c, calls, -, eq⟩ | ⟨em, label, m, -, -, -, -, -, -, eq⟩ <;>
      cases eq.symm.trans h <;> rfl

end Sys2Proof.Proofs
end

section
/-! PROOF. 10_state.md R25: the outcome of a command depends only on the registers it reads, and of a pad on the draw. The two
runs are carried through the command side by side, operation by operation. -/

namespace Sys2Proof.Proofs

open Sys2Proof Sys2Proof.Machine

/-! ### Two runs side by side -/

/-- The work of a command that led from `s` to `t` and from `s'` to `t'`: the same results so far, the same port calls made. -/
structure SameWork (s s' t t' : State) : Prop where
  r : t'.r = t.r
  out : t'.out = t.out
  trace : ∃ calls, t.trace = s.trace ++ calls ∧ t'.trace = s'.trace ++ calls

/-- A command's two outcomes from `s` and `s'`: both stop alike, or both end with the same work done and the same `STATUS`. -/
inductive SameOutcome (s s' : State) : Result → Result → Prop where
  | next {t t' : State} : SameWork s s' t t' → t'.status = t.status → SameOutcome s s' (.next t) (.next t')
  | fault (f : Fault) : SameOutcome s s' (.fault f) (.fault f)

section
variable {s s' t t' : State}

theorem sameWork_beginCommand (s s' : State) : SameWork s s' s.beginCommand s'.beginCommand :=
  ⟨rfl, rfl, [], by simp, by simp⟩

theorem SameWork.record (h : SameWork s s' t t') (calls : List PortCall) :
    SameWork s s' (t.record calls) (t'.record calls) := by
  obtain ⟨r, out, before, trace, trace'⟩ := h
  exact ⟨r, out, before ++ calls, by simp [trace], by simp [trace']⟩

theorem SameWork.drawn (h : SameWork s s' t t') (count : Nat) : SameWork s s' (t.drawn count) (t'.drawn count) :=
  let ⟨r, out, trace⟩ := h.record [.rand count]
  ⟨r, out, trace⟩

theorem SameWork.setCm (h : SameWork s s' t t') (m : CompositeModulus) : SameWork s s' (t.setCm m) (t'.setCm m) :=
  ⟨h.r, h.out, h.trace⟩

theorem SameWork.setR (h : SameWork s s' t t') (v : Nat) : SameWork s s' (t.setR v) (t'.setR v) :=
  ⟨rfl, h.out, h.trace⟩

theorem SameWork.setOut (h : SameWork s s' t t') (b : Bytes) : SameWork s s' (t.setOut b) (t'.setOut b) :=
  ⟨h.r, rfl, h.trace⟩

theorem SameWork.fail (h : SameWork s s' t t') (c : Failure) :
    SameOutcome s s' (.next (t.fail c)) (.next (t'.fail c)) :=
  .next ⟨h.r, h.out, h.trace⟩ rfl

theorem SameWork.done (h : SameWork s s' t t') : SameOutcome s s' (.next t.done) (.next t'.done) :=
  .next ⟨h.r, h.out, h.trace⟩ rfl

/-! ### Each command: the same operands take both runs through the same branch -/

theorem execCmLoad_sameOutcome (same : sameOperands s s' .cmLoad) :
    SameOutcome s s' (execCmLoad s) (execCmLoad s') := by
  obtain ⟨hn, hp, hq, hgf⟩ := same
  have start := sameWork_beginCommand s s'
  unfold execCmLoad
  simp only [State.beginCommand_n, State.beginCommand_p, State.beginCommand_q, State.beginCommand_gf, ← hn, ← hp, ← hq,
    ← hgf]
  split
  · split_ifs
    · exact start.fail _
    · exact (start.setCm _).done
  · exact start.fail _

theorem execCrtModpow_sameOutcome (same : sameOperands s s' .crtModpow) :
    SameOutcome s s' (execCrtModpow s) (execCrtModpow s') := by
  obtain ⟨hcm, hx, he⟩ := same
  have start := sameWork_beginCommand s s'
  unfold execCrtModpow
  simp only [State.beginCommand_cm, State.beginCommand_x, State.beginCommand_e, ← hcm, ← hx, ← he]
  split
  · split_ifs
    · exact start.fail _
    · split
      · exact .fault _
      · exact ((start.record _).setR _).done
  · exact start.fail _

theorem mgf1Command_sameOutcome (B : Build) {len : Nat} (same : sameOperands s s' (.mgf1 len)) :
    SameOutcome s s' (mgf1Command B len s) (mgf1Command B len s') := by
  change s.inp = s'.inp at same
  have start := sameWork_beginCommand s s'
  unfold mgf1Command
  simp only [State.beginCommand_inp, ← same]
  split
  · split_ifs
    · exact start.fail _
    · exact ((start.record _).setOut _).done
  · exact start.fail _

theorem oaepPadCommand_sameOutcome (B : Build) (same : sameOperands s s' .oaepPad) :
    SameOutcome s s' (oaepPadCommand B s) (oaepPadCommand B s') := by
  obtain ⟨hn, hinp, hlbl, hdraws⟩ := same
  have start := sameWork_beginCommand s s'
  unfold oaepPadCommand State.randAnswer
  simp only [State.beginCommand_n, State.beginCommand_inp, State.beginCommand_lbl, State.record_draws,
    State.beginCommand_draws, ← hn, ← hinp, ← hlbl, ← hdraws]
  split
  · split_ifs
    · exact start.fail _
    · exact ((((start.record _).drawn _).record _).setOut _).done
  · exact start.fail _

theorem oaepUnpadCommand_sameOutcome (B : Build) (same : sameOperands s s' .oaepUnpad) :
    SameOutcome s s' (oaepUnpadCommand B s) (oaepUnpadCommand B s') := by
  obtain ⟨hinp, hlbl⟩ := same
  have start := sameWork_beginCommand s s'
  unfold oaepUnpadCommand
  simp only [State.beginCommand_inp, State.beginCommand_lbl, ← hinp, ← hlbl]
  split
  · split_ifs with short lead foreign
    · exact start.fail _
    · exact start.fail _
    · split
      · exact (start.record _).fail _
      · exact ((start.record _).record _).fail _
    · split
      · exact (start.record _).fail _
      · exact (((start.record _).record _).setOut _).done
  · exact start.fail _

/-- No outcome of a command depends on more than its operands (10_state.md R25). -/
theorem exec_sameOutcome {i : Instr} (same : sameOperands s s' i) : SameOutcome s s' (exec i s) (exec i s') := by
  cases i with
  | cmLoad => exact execCmLoad_sameOutcome same
  | crtModpow => exact execCrtModpow_sameOutcome same
  | mgf1 len => exact mgf1Command_sameOutcome Config.build same
  | oaepPad => exact oaepPadCommand_sameOutcome Config.build same
  | oaepUnpad => exact oaepUnpadCommand_sameOutcome Config.build same

/-! ### The latched `CM` -/

theorem statusWord_ne_ok (c : Failure) : c.statusWord ≠ 0x00000001#32 := by cases c <;> decide

/-- A `CM_LOAD` that ended in success has latched its four operands (41_crt_modpow.md R121). -/
theorem execCmLoad_cm_of_ok (h : execCmLoad s = .next t) (ok : t.status = 0x00000001#32) :
    ∃ n p q gf, s.n = some n ∧ s.p = some p ∧ s.q = some q ∧ s.gf = some gf ∧
      t.cm = some { n := n, p := p, q := q, gf := gf } := by
  rcases execCmLoad_cases s with ⟨c, eq⟩ | ⟨n, p, q, gf, hn, hp, hq, hgf, -, -, -, -, eq⟩ <;> cases eq.symm.trans h
  · exact absurd ok (statusWord_ne_ok c)
  · exact ⟨n, p, q, gf, hn, hp, hq, hgf, rfl⟩

theorem execCmLoad_same_cm (same : sameOperands s s' .cmLoad) (h : execCmLoad s = .next t) (h' : execCmLoad s' = .next t')
    (ok : t.status = 0x00000001#32) (ok' : t'.status = 0x00000001#32) : t'.cm = t.cm := by
  obtain ⟨n, p, q, gf, hn, hp, hq, hgf, cm⟩ := execCmLoad_cm_of_ok h ok
  obtain ⟨n', p', q', gf', hn', hp', hq', hgf', cm'⟩ := execCmLoad_cm_of_ok h' ok'
  obtain ⟨same_n, same_p, same_q, same_gf⟩ := same
  cases hn.symm.trans (same_n.trans hn')
  cases hp.symm.trans (same_p.trans hp')
  cases hq.symm.trans (same_q.trans hq')
  cases hgf.symm.trans (same_gf.trans hgf')
  exact cm'.trans cm.symm

end

/-- Settles O51: the same outcome from the same operands, and the same `CM` latched. -/
theorem commandsDependOnlyOnTheirOperands : Obligations.CommandsDependOnlyOnTheirOperands := by
  intro i s s' t same h
  have outcome := exec_sameOutcome same
  rw [h] at outcome
  generalize h' : exec i s' = result at outcome
  cases outcome with
  | @next _ t' work status =>
    obtain ⟨r, out, calls, trace, trace'⟩ := work
    refine ⟨t', calls, rfl, r, out, status, trace, trace', ?_⟩
    rintro rfl ok
    exact execCmLoad_same_cm same h h' ok (status.trans ok)

end Sys2Proof.Proofs
end

section
/-! PROOF. The invariant of every step (10_state.md R21 to R31): one rule per operation of the state, the bounds of what is
written, then each command and each transaction by its list of cases. -/

namespace Sys2Proof.Proofs

open Sys2Proof Sys2Proof.Machine

section
variable {B : Build} {s t : State}

theorem statusWord_mem_legalStatus (c : Failure) : c.statusWord ∈ legalStatus := by cases c <;> decide

/-! ### One rule per operation of the state -/

theorem inv_respond (h : s.Inv B) (a : Response) : (s.respond a).Inv B := { h with }

theorem inv_take (h : s.Inv B) (rest : List Transaction) : (s.take rest).Inv B := { h with }

theorem inv_record (h : s.Inv B) (calls : List PortCall) : (s.record calls).Inv B := { h with }

theorem inv_drawn (h : s.Inv B) (count : Nat) : (s.drawn count).Inv B := { h with }

theorem inv_resetInput (s : State) : s.resetInput.Inv B := { reset_inv B with }

theorem inv_beginCommand (h : s.Inv B) : s.beginCommand.Inv B :=
  { h with
    result := fun _ hr => nomatch hr
    output := fun _ ho => nomatch ho
    honest := fun valid => by simp at valid
    single := .inl rfl }

theorem inv_writeInt (h : s.Inv B) (i : IntOperand) {v : Nat} (hv : v < 256 ^ B.cap) : (s.writeInt i v).Inv B where
  operands j w hj := by
    rw [State.readInt_writeInt] at hj
    split_ifs at hj
    · cases hj
      exact hv
    · exact h.operands j w hj
  result := by simpa using h.result
  buffers := by simpa using h.buffers
  output := by simpa using h.output
  modulus := by simpa using h.modulus
  label := by simpa using h.label
  status := by simpa using h.status
  honest := by simpa using h.honest
  single := by simpa using h.single

theorem inv_writeBuf (h : s.Inv B) (i : BufOperand) {b : Bytes} (hb : b.length ≤ B.cap) : (s.writeBuf i b).Inv B where
  operands := by simpa using h.operands
  result := by simpa using h.result
  buffers j c hj := by
    rw [State.readBuf_writeBuf] at hj
    split_ifs at hj
    · cases hj
      exact hb
    · exact h.buffers j c hj
  output := by simpa using h.output
  modulus := by simpa using h.modulus
  label := by
    cases i with
    | inp => exact h.label
    | lbl => exact Option.some_ne_none b
  status := by simpa using h.status
  honest := by simpa using h.honest
  single := by simpa using h.single

theorem inv_fail (h : s.Inv B) (hr : s.r = none) (ho : s.out = none) (c : Failure) : (s.fail c).Inv B :=
  { h with
    status := statusWord_mem_legalStatus c
    honest := fun valid => by simp [hr, ho] at valid }

theorem inv_done (h : s.Inv B) : s.done.Inv B :=
  { h with
    status := show statusOk ∈ legalStatus by decide
    honest := fun _ => rfl }

theorem inv_setCm (h : s.Inv B) {m : CompositeModulus} (hm : m.InRange B) : (s.setCm m).Inv B :=
  { h with modulus := fun _ latched => by cases latched; exact hm }

theorem inv_setR_done (h : s.Inv B) (ho : s.out = none) {v : Nat} (hv : v < 256 ^ (2 * B.cap)) : (s.setR v).done.Inv B :=
  { inv_done h with
    result := fun _ written => by cases written; exact hv
    honest := fun _ => rfl
    single := .inr ho }

theorem inv_setOut_done (h : s.Inv B) (hr : s.r = none) {b : Bytes} (hb : b.length ≤ B.cap) : (s.setOut b).done.Inv B :=
  { inv_done h with
    output := fun _ written => by cases written; exact hb
    honest := fun _ => rfl
    single := .inl hr }

/-! ### The bounds of the values a transfer or a command writes -/

theorem bytesToInt_lt_of_length_le {b : Bytes} {len : Nat} (h : b.length ≤ len) : bytesToInt b < 256 ^ len :=
  (bytesToInt_lt b).trans_le (Nat.pow_le_pow_right (by decide) h)

/-- Garner's value `h*q + b` with `h < p` and `b < q` (41_crt_modpow.md R129). -/
theorem garner_lt {p q b : Nat} (gf a : Nat) (hp : 0 < p) (hb : b < q) : garner p q gf a b < p * q := by
  have residue : (((a : Int) - b) % p * gf % p).toNat < p := by
    have := Int.emod_nonneg (((a : Int) - b) % p * gf) (b := (p : Int)) (by omega)
    have := Int.emod_lt_of_pos (((a : Int) - b) % p * gf) (b := (p : Int)) (by omega)
    omega
  calc garner p q gf a b < (((a : Int) - b) % p * gf % p).toNat * q + q := Nat.add_lt_add_left hb _
    _ = ((((a : Int) - b) % p * gf % p).toNat + 1) * q := (Nat.succ_mul _ _).symm
    _ ≤ p * q := Nat.mul_le_mul_right q residue

/-- The padded message is as long as the modulus (43_oaep.md R155). -/
theorem paddedMessage_length (s : State) {k : Nat} (label : Bytes) {m : Bytes}
    (h : m.length + 2 * B.hlen + 2 ≤ k) :
    (oaepMask B (s.randAnswer B B.hlen) (dataBlock B k (B.hash (label ++ [0x00#8])) m)).1.length = k := by
  rw [oaepMask_length _ _ _ (randAnswer_length _ _ _), dataBlock_length _ _ _ _ (B.hash_length _) h]
  omega

/-- The message is shorter than the padded one it is found in (43_oaep.md R179). -/
theorem unpaddedMessage_length_le {em m : Bytes} (h : findMessage B (oaepUnmask B em).1.2 = .ok m) :
    m.length ≤ em.length := by
  obtain ⟨-, z, db⟩ := findMessage_ok h
  have lengths := congrArg List.length db
  simp only [oaepUnmask, List.length_drop, List.length_append, List.length_cons, xorBytes_length, slice_length, mgf1_length,
    zeros_length] at lengths
  omega

/-! ### Each command, each transaction -/

theorem execCmLoad_keeps_inv (h : s.Inv B) (hnext : execCmLoad s = .next t) : t.Inv B := by
  have start := inv_beginCommand h
  rcases execCmLoad_cases s with ⟨c, eq⟩ | ⟨n, p, q, gf, hn, hp, hq, hgf, n0, p0, q0, gf0, eq⟩ <;>
    cases eq.symm.trans hnext
  · exact inv_fail start rfl rfl c
  · exact inv_done (inv_setCm start
      { n_pos := Nat.pos_of_ne_zero n0, p_pos := Nat.pos_of_ne_zero p0, q_pos := Nat.pos_of_ne_zero q0,
        gf_pos := Nat.pos_of_ne_zero gf0, n_lt := h.operands .n n hn, p_lt := h.operands .p p hp,
        q_lt := h.operands .q q hq, gf_lt := h.operands .gf gf hgf })

theorem execCrtModpow_keeps_inv (h : s.Inv B) (hnext : execCrtModpow s = .next t) : t.Inv B := by
  have start := inv_beginCommand h
  rcases execCrtModpow_cases s with ⟨c, eq⟩ | ⟨m, x, exp, hcm, -, -, -, -, eq⟩
  · cases eq.symm.trans hnext
    exact inv_fail start rfl rfl c
  · split_ifs at eq <;> cases eq.symm.trans hnext
    have range := h.modulus m hcm
    refine inv_setR_done (inv_record start _) rfl ?_
    calc garner m.p m.q m.gf _ _ < m.p * m.q := garner_lt _ _ range.p_pos (Nat.mod_lt _ range.q_pos)
      _ ≤ 256 ^ B.cap * 256 ^ B.cap := Nat.mul_le_mul range.p_lt.le range.q_lt.le
      _ = 256 ^ (2 * B.cap) := by rw [two_mul, pow_add]

theorem mgf1Command_keeps_inv {len : Nat} (h : s.Inv B) (hnext : mgf1Command B len s = .next t) : t.Inv B := by
  have start := inv_beginCommand h
  rcases mgf1Command_cases B len s with ⟨c, eq⟩ | ⟨seed, -, fits, eq⟩ <;> cases eq.symm.trans hnext
  · exact inv_fail start rfl rfl c
  · exact inv_setOut_done (inv_record start _) rfl ((mgf1_length B seed len).trans_le fits)

theorem oaepPadCommand_keeps_inv (h : s.Inv B) (hnext : oaepPadCommand B s = .next t) : t.Inv B := by
  have start := inv_beginCommand h
  rcases oaepPadCommand_cases B s with ⟨c, eq⟩ | ⟨n, m, label, hn, -, -, fits, eq⟩ <;> cases eq.symm.trans hnext
  · exact inv_fail start rfl rfl c
  · refine inv_setOut_done (inv_record (inv_drawn (inv_record start _) _) _) rfl ?_
    rw [paddedMessage_length s label fits]
    exact (bytelen_le_iff n B.cap).mpr (h.operands .n n hn)

theorem oaepUnpadCommand_keeps_inv (h : s.Inv B) (hnext : oaepUnpadCommand B s = .next t) : t.Inv B := by
  have start := inv_beginCommand h
  rcases oaepUnpadCommand_cases B s with ⟨c, calls, -, eq⟩ | ⟨em, label, m, hem, -, -, -, found, -, eq⟩ <;>
    cases eq.symm.trans hnext
  · exact inv_fail (inv_record start calls) rfl rfl c
  · exact inv_setOut_done (inv_record (inv_record start _) _) rfl
      ((unpaddedMessage_length_le found).trans (h.buffers .inp em hem))

theorem commandIn_keeps_inv {i : Instr} (h : s.Inv B) (hnext : commandIn B i s = .next t) : t.Inv B := by
  cases i with
  | cmLoad => exact execCmLoad_keeps_inv h hnext
  | crtModpow => exact execCrtModpow_keeps_inv h hnext
  | mgf1 len => exact mgf1Command_keeps_inv h hnext
  | oaepPad => exact oaepPadCommand_keeps_inv h hnext
  | oaepUnpad => exact oaepUnpadCommand_keeps_inv h hnext

theorem runWord_keeps_inv {w : Word} (h : s.Inv B) (hnext : runWord (commandIn B) w s = .next t) : t.Inv B := by
  unfold runWord at hnext
  split at hnext
  · exact commandIn_keeps_inv h hnext
  · cases hnext
    exact inv_fail (inv_beginCommand h) rfl rfl .illegalCmd

theorem transact_keeps_inv {tr : Transaction} (h : s.Inv B) (hnext : transact B (commandIn B) tr s = .next t) :
    t.Inv B := by
  rcases transact_cases B (commandIn B) tr s with ⟨-, eq⟩ | ⟨w, -, eq⟩ | ⟨a, eq⟩ | ⟨i, b, fits, eq⟩ | ⟨i, b, fits, eq⟩
  · cases eq.symm.trans hnext
    exact inv_resetInput s
  · exact runWord_keeps_inv (inv_respond h .okay) (eq.symm.trans hnext)
  · cases eq.symm.trans hnext
    exact inv_respond h a
  · cases eq.symm.trans hnext
    exact inv_respond (inv_writeInt h i (bytesToInt_lt_of_length_le fits)) .okay
  · cases eq.symm.trans hnext
    exact inv_respond (inv_writeBuf h i fits) .okay

end

/-- Settles O55: an idle step holds the state; otherwise the step is one transaction, and each keeps the invariant. -/
theorem everyStepKeepsTheInvariants : Obligations.EveryStepKeepsTheInvariants := by
  intro s t h hnext
  cases queue : s.pending with
  | nil =>
    cases (step_of_idle queue).symm.trans hnext
    exact h
  | cons tr rest =>
    rw [step_of_pending queue, funext₂ exec_eq_commandIn] at hnext
    exact transact_keeps_inv (inv_take h rest) hnext

end Sys2Proof.Proofs
end

section
/-! PROOF. A read of a register (20_memory.md R65): its answer does not depend on the queue or on the answers given before,
and a step that takes a read is that answer and nothing else. -/

namespace Sys2Proof.Proofs

open Sys2Proof Sys2Proof.Machine

section
variable (B : Build)

@[simp] theorem hostRead_respond (s : State) (a : Response) : hostRead B (s.respond a) = hostRead B s := by
  funext reg
  cases reg with
  | intOperand i => simp only [hostRead, State.respond_readInt]
  | bufOperand i => simp only [hostRead, State.respond_readBuf]
  | _ => rfl

@[simp] theorem hostRead_take (s : State) (rest : List Transaction) : hostRead B (s.take rest) = hostRead B s := by
  funext reg
  cases reg with
  | intOperand i => simp only [hostRead, State.take_readInt]
  | bufOperand i => simp only [hostRead, State.take_readBuf]
  | _ => rfl

@[simp] theorem readResponse_respond (s : State) (a : Response) (id : Nat) :
    readResponse B (s.respond a) id = readResponse B s id := by
  simp only [readResponse, hostRead_respond]

@[simp] theorem readResponse_take (s : State) (rest : List Transaction) (id : Nat) :
    readResponse B (s.take rest) id = readResponse B s id := by
  simp only [readResponse, hostRead_take]

end

/-- The whole step of `RD id` (40_host_transfers.md R104 to R106, R108). -/
theorem step_of_read {s : State} {id : Nat} {rest : List Transaction} (h : s.pending = .rd id :: rest) :
    step s = .next ((s.take rest).respond (readResponse Config.build s id)) := by
  rw [step_of_pending h, transact, readResponse_take]

/-- Settles O18: each of the two steps answers what `s` answers, since the first changes nothing a read depends on. -/
theorem readsAreIdempotent : Obligations.ReadsAreIdempotent := by
  intro s rest id queue
  have again : ((s.take (.rd id :: rest)).respond (readResponse Config.build s id)).pending = .rd id :: rest := rfl
  refine ⟨_, readResponse Config.build s id, step_of_read queue, rfl, ?_⟩
  rw [step_of_read again, readResponse_respond, readResponse_take]
  simp only [State.take, State.respond, List.append_assoc, List.cons_append, List.nil_append]

end Sys2Proof.Proofs
end

section
/-! PROOF. The command word (30_encoding.md R80 to R91): a word is its two fields, encode is the two-sided inverse of decode
on well-formed commands, which words are illegal, and the step that takes `WR CMD` of a word. -/

namespace Sys2Proof.Proofs

open Sys2Proof Sys2Proof.Machine

/-! ### Encode and decode -/

theorem decode_of_opc_three {w : Word} (hopc : opc w = 3) : decode w = .ok (.mgf1 (imm24 w)) := by
  simp only [decode, hopc]

theorem decode_encode {i : Instr} (hi : i.WellFormed) : decode (encode i) = .ok i := by
  cases i with
  | mgf1 len =>
    obtain ⟨hopc, himm⟩ := Laws.OpcodeField.mgf1 len hi
    rw [decode_of_opc_three hopc, himm]
  | cmLoad | crtModpow | oaepPad | oaepUnpad => rfl

/-- The two fields are the whole word (30_encoding.md R80). -/
theorem ofNat_fields_eq_word {w : Word} {op imm : Nat} (hopc : opc w = op) (himm : imm24 w = imm) :
    BitVec.ofNat 32 (imm * 256 + op) = w := by
  rw [← hopc, ← himm, ← toNat_eq_imm24_opc, BitVec.ofNat_toNat, BitVec.setWidth_eq]

theorem wellFormed_mgf1_iff {len : Nat} : (Instr.mgf1 len).WellFormed ↔ len < 2 ^ 24 := decide_eq_true_iff

theorem encode_of_decode {w : Word} {i : Instr} (h : decode w = .ok i) : i.WellFormed ∧ encode i = w := by
  rcases decode_cases h with ⟨rfl, hopc, himm⟩ | ⟨rfl, hopc, himm⟩ | ⟨rfl, hopc⟩ | ⟨rfl, hopc, himm⟩ | ⟨rfl, hopc, himm⟩
  · exact ⟨rfl, ofNat_fields_eq_word hopc himm⟩
  · exact ⟨rfl, ofNat_fields_eq_word hopc himm⟩
  · exact ⟨wellFormed_mgf1_iff.mpr (imm24_lt w), ofNat_fields_eq_word hopc rfl⟩
  · exact ⟨rfl, ofNat_fields_eq_word hopc himm⟩
  · exact ⟨rfl, ofNat_fields_eq_word hopc himm⟩

theorem decode_eq_ok_iff {w : Word} {i : Instr} : decode w = .ok i ↔ i.WellFormed ∧ encode i = w where
  mp := encode_of_decode
  mpr := by
    rintro ⟨hi, rfl⟩
    exact decode_encode hi

theorem toNat_encode_mgf1 {len : Nat} (h : len < 2 ^ 24) : (encode (.mgf1 len)).toNat = len * 256 + 3 := by
  rw [encode, BitVec.toNat_ofNat, Nat.mod_eq_of_lt (by omega)]

/-- Settles O1: by cases on the command; for MGF1 the word's fields are its opcode and its length. -/
theorem decodeOfEncodeIsTheCommand : Obligations.DecodeOfEncodeIsTheCommand := fun _ => decode_encode

/-- The words that are some command's (30_encoding.md R86), told by their two fields. -/
theorem exists_decode_ok_iff (w : Word) :
    (∃ i, decode w = .ok i) ↔ opc w = 3 ∨ (opc w ∈ [1, 2, 4, 5] ∧ imm24 w = 0) := by
  constructor
  · rintro ⟨i, h⟩
    rcases decode_cases h with h | h | h | h | h <;> simp [h]
  · simp only [List.mem_cons, List.not_mem_nil, or_false]
    rintro (hopc | ⟨hopc | hopc | hopc | hopc, himm⟩)
    · exact ⟨_, decode_of_opc_three hopc⟩
    · exact ⟨.cmLoad, decode_eq_ok_iff.mpr ⟨rfl, ofNat_fields_eq_word hopc himm⟩⟩
    · exact ⟨.crtModpow, decode_eq_ok_iff.mpr ⟨rfl, ofNat_fields_eq_word hopc himm⟩⟩
    · exact ⟨.oaepPad, decode_eq_ok_iff.mpr ⟨rfl, ofNat_fields_eq_word hopc himm⟩⟩
    · exact ⟨.oaepUnpad, decode_eq_ok_iff.mpr ⟨rfl, ofNat_fields_eq_word hopc himm⟩⟩

/-- The decoder is total: a word is refused exactly when it is no command's. -/
theorem exists_decode_error_iff_not_ok (w : Word) :
    (∃ reason, decode w = .error reason) ↔ ¬ ∃ i, decode w = .ok i := by
  cases decode w <;> simp

/-- Settles O2: the words of the five rows decode as `encode` has them, and a word that is no row's cannot decode. -/
theorem decodeIsTotalAndEncodeItsInverse : Obligations.DecodeIsTotalAndEncodeItsInverse := by
  refine ⟨fun w => ⟨?_, ?_, ?_, ?_, ?_, ?_, fun i => decode_eq_ok_iff⟩, fun len => toNat_encode_mgf1⟩
  · exact fun h => decode_eq_ok_iff.mpr ⟨rfl, h.symm⟩
  · exact fun h => decode_eq_ok_iff.mpr ⟨rfl, h.symm⟩
  · rw [← opc_eq, ← imm24_eq]
    exact decode_of_opc_three
  · exact fun h => decode_eq_ok_iff.mpr ⟨rfl, h.symm⟩
  · exact fun h => decode_eq_ok_iff.mpr ⟨rfl, h.symm⟩
  · intro notLoad notCrt notMgf1 notPad notUnpad
    rw [exists_decode_error_iff_not_ok]
    rintro ⟨i, h⟩
    obtain ⟨hi, rfl⟩ := encode_of_decode h
    cases i with
    | mgf1 len =>
      rw [← opc_eq] at notMgf1
      exact notMgf1 (Laws.OpcodeField.mgf1 len hi).1
    | cmLoad => exact notLoad rfl
    | crtModpow => exact notCrt rfl
    | oaepPad => exact notPad rfl
    | oaepUnpad => exact notUnpad rfl

/-! ### The opcode table's masks (30_encoding.md R86) -/

theorem decode_eq_ok_iff_full_mask (w : Word) {i : Instr} (hi : i.WellFormed) :
    decode w = .ok i ↔ w &&& 0xFFFFFFFF#32 = encode i := by
  have keepsAll : w &&& 0xFFFFFFFF#32 = w := BitVec.and_allOnes
  rw [keepsAll, decode_eq_ok_iff, and_iff_right hi, eq_comm]

theorem toNat_and_low_mask (w : Word) : (w &&& 0x000000FF#32).toNat = opc w := by
  rw [opc_eq, BitVec.toNat_and]
  exact Nat.and_two_pow_sub_one_eq_mod w.toNat 8

theorem decode_mgf1_iff_low_mask (w : Word) :
    (∃ len, decode w = .ok (.mgf1 len)) ↔ w &&& 0x000000FF#32 = 0x00000003#32 := by
  have hmask : w &&& 0x000000FF#32 = 0x00000003#32 ↔ opc w = 3 := by
    rw [← BitVec.toNat_inj, toNat_and_low_mask]
    rfl
  rw [hmask]
  constructor
  · rintro ⟨len, h⟩
    obtain ⟨hlen, rfl⟩ := encode_of_decode h
    exact (Laws.OpcodeField.mgf1 len hlen).1
  · exact fun hopc => ⟨_, decode_of_opc_three hopc⟩

/-- The length's bits and the opcode's do not meet, so the sum of the two is their OR. -/
theorem encode_mgf1_eq_shift_or {len : Nat} (h : len < 2 ^ 24) :
    encode (.mgf1 len) = (BitVec.ofNat 32 len <<< 8) ||| 0x03#32 := by
  apply BitVec.eq_of_toNat_eq
  have hshift : (BitVec.ofNat 32 len <<< 8).toNat = len <<< 8 := by
    rw [BitVec.toNat_shiftLeft, BitVec.toNat_ofNat, Nat.shiftLeft_eq, Nat.shiftLeft_eq]
    omega
  calc (encode (.mgf1 len)).toNat
      = len <<< 8 + 3 := by rw [toNat_encode_mgf1 h, Nat.shiftLeft_eq]
    _ = len <<< 8 ||| 3 := Nat.shiftLeft_add_eq_or_of_lt (by decide) len
    _ = ((BitVec.ofNat 32 len <<< 8) ||| 0x03#32).toNat := by rw [BitVec.toNat_or, hshift]; rfl

/-- Settles O3: the full mask compares the whole word, the low mask its opcode. -/
theorem wordSelectsRowByMaskAndMatch : Obligations.WordSelectsRowByMaskAndMatch :=
  ⟨fun w => ⟨decode_eq_ok_iff_full_mask w (i := .cmLoad) rfl, decode_eq_ok_iff_full_mask w (i := .crtModpow) rfl,
      decode_mgf1_iff_low_mask w, decode_eq_ok_iff_full_mask w (i := .oaepPad) rfl,
      decode_eq_ok_iff_full_mask w (i := .oaepUnpad) rfl⟩,
    rfl, rfl, rfl, rfl, fun _ => encode_mgf1_eq_shift_or⟩

/-! ### Illegal words, and the step of a command word -/

/-- The illegal words (30_encoding.md R87). -/
theorem exists_decode_error_iff (w : Word) :
    (∃ reason, decode w = .error reason) ↔
      opc w = 0x00 ∨ 0x06 ≤ opc w ∨ (opc w ∈ [0x01, 0x02, 0x04, 0x05] ∧ imm24 w ≠ 0) := by
  rw [exists_decode_error_iff_not_ok, exists_decode_ok_iff]
  simp only [List.mem_cons, List.not_mem_nil, or_false]
  omega

/-- Settles O5: the seven legal words by evaluation, the five others by the fields of an illegal word. -/
theorem vectorWordsDecodeAsListed : Obligations.VectorWordsDecodeAsListed := by
  refine ⟨rfl, rfl, rfl, rfl, rfl, rfl, rfl, fun w hw => (exists_decode_error_iff w).mpr ?_⟩
  simp only [List.mem_cons, List.not_mem_nil, or_false] at hw
  rcases hw with rfl | rfl | rfl | rfl | rfl <;> decide

/-- The whole step of `WR CMD` of a word (40_host_transfers.md R103; 30_encoding.md R81). -/
theorem step_of_command_word {s : State} {w : Word} {rest : List Transaction}
    (h : s.pending = .wr 0x10 (.word w) :: rest) : step s = runWord exec w ((s.take rest).respond .okay) :=
  step_of_pending h

theorem runWord_of_decode_ok {run : Instr → State → Result} {w : Word} {i : Instr} (h : decode w = .ok i) (s : State) :
    runWord run w s = run i s := by
  simp only [runWord, h]

theorem runWord_of_decode_error {run : Instr → State → Result} {w : Word} {reason : IllegalWord}
    (h : decode w = .error reason) (s : State) : runWord run w s = .next (illegalCommand s) := by
  simp only [runWord, h]

/-- Settles O6: the step runs the word, and the word is its command. -/
theorem stepRunsTheDecodedCommand : Obligations.StepRunsTheDecodedCommand := by
  intro s w rest i queue hw
  rw [step_of_command_word queue, runWord_of_decode_ok hw]
  rfl

/-- Settles O4: the illegal words by their fields; the step of one is the illegal command, whose STATUS is 0x112. -/
theorem illegalWordsFailAndChangeNothingElse : Obligations.IllegalWordsFailAndChangeNothingElse := by
  intro w
  constructor
  · rw [← opc_eq, ← imm24_eq]
    exact exists_decode_error_iff w
  · intro s rest reason queue hw
    rw [step_of_command_word queue, runWord_of_decode_error hw]
    rfl

end Sys2Proof.Proofs
end

section
/-! PROOF. `WR` of an operand register (40_host_transfers.md R101, R102, R109): a write is the write of the register its id
names, and it either replaces that register's value or only answers ERROR. -/

namespace Sys2Proof.Proofs

open Sys2Proof Sys2Proof.Machine

section
variable {B : Build} {s : State}

/-- `WR` of a register other than `CMD` is the write of the register its id names. -/
theorem transact_wr_of_ofId {run : Instr → State → Result} {id : Nat} {reg : Reg} {payload : Payload}
    (hid : Reg.ofId id = some reg) (hreg : reg ≠ .cmd) :
    transact B run (.wr id payload) s = .next (hostWrite B reg payload s) := by
  cases reg with
  | cmd => exact absurd rfl hreg
  | _ => simp only [transact, hid]

/-! ### What the write of each kind of register does -/

theorem hostWrite_intOperand_of_fits {b : Bytes} (fits : b.length ≤ B.cap) (i : IntOperand) :
    hostWrite B (.intOperand i) (.bytes b) s = (s.writeInt i (bytesToInt b)).respond .okay :=
  if_neg (Nat.not_lt.mpr fits)

theorem hostWrite_bufOperand_of_fits {b : Bytes} (fits : b.length ≤ B.cap) (i : BufOperand) :
    hostWrite B (.bufOperand i) (.bytes b) s = (s.writeBuf i b).respond .okay :=
  if_neg (Nat.not_lt.mpr fits)

theorem hostWrite_intOperand_of_long {b : Bytes} (long : B.cap < b.length) (i : IntOperand) :
    hostWrite B (.intOperand i) (.bytes b) s = s.respond .error :=
  if_pos long

theorem hostWrite_bufOperand_of_long {b : Bytes} (long : B.cap < b.length) (i : BufOperand) :
    hostWrite B (.bufOperand i) (.bytes b) s = s.respond .error :=
  if_pos long

/-- Only `CMD` takes a word (40_host_transfers.md R109; log entry 7). -/
theorem hostWrite_word (reg : Reg) (w : Word) : hostWrite B reg (.word w) s = s.respond .error := by
  cases reg <;> rfl

theorem writeInt_changes_only_operands (s : State) (i : IntOperand) (v : Nat) :
    s.writeInt i v = { s with
      n := (s.writeInt i v).n, p := (s.writeInt i v).p, q := (s.writeInt i v).q, gf := (s.writeInt i v).gf,
      x := (s.writeInt i v).x, e := (s.writeInt i v).e } := by
  cases i <;> rfl

theorem writeBuf_changes_only_buffers (s : State) (i : BufOperand) (b : Bytes) :
    s.writeBuf i b = { s with inp := (s.writeBuf i b).inp, lbl := (s.writeBuf i b).lbl } := by
  cases i <;> rfl

end

/-! ### The step of a write -/

/-- The whole step of `WR` of a register other than `CMD` (40_host_transfers.md R101, R102). -/
theorem step_of_write {s : State} {reg : Reg} {payload : Payload} {rest : List Transaction} (hreg : reg ≠ .cmd)
    (queue : s.pending = .wr reg.id payload :: rest) :
    step s = .next (hostWrite Config.build reg payload (s.take rest)) := by
  rw [step_of_pending queue, transact_wr_of_ofId (Reg.ofId_id reg) hreg]

/-- The step of a `WR` of an integer operand register that fits (40_host_transfers.md R101). -/
theorem step_of_integer_write {s : State} {i : IntOperand} {b : Bytes} {rest : List Transaction}
    (queue : s.pending = .wr (Reg.intOperand i).id (.bytes b) :: rest) (fits : b.length ≤ Config.build.cap) :
    step s = .next (((s.take rest).writeInt i (bytesToInt b)).respond .okay) := by
  rw [step_of_write Reg.noConfusion queue, hostWrite_intOperand_of_fits fits]

/-- The step of a `WR` of `IN` or `LBL` that fits (40_host_transfers.md R102). -/
theorem step_of_buffer_write {s : State} {i : BufOperand} {b : Bytes} {rest : List Transaction}
    (queue : s.pending = .wr (Reg.bufOperand i).id (.bytes b) :: rest) (fits : b.length ≤ Config.build.cap) :
    step s = .next (((s.take rest).writeBuf i b).respond .okay) := by
  rw [step_of_write Reg.noConfusion queue, hostWrite_bufOperand_of_fits fits]

/-- Settles O9: the step writes the one register and answers, or refuses what is longer than CAP. -/
theorem writeIntegerOperandReplacesItsValue : Obligations.WriteIntegerOperandReplacesItsValue := by
  intro s rest i b queue
  constructor
  · intro fits
    refine ⟨_, step_of_integer_write queue fits, by simp, fun j other => by simp [other], ?_⟩
    exact congrArg (State.respond · .okay) (writeInt_changes_only_operands (s.take rest) i (bytesToInt b))
  · intro long
    rw [step_of_write Reg.noConfusion queue, hostWrite_intOperand_of_long long]
    rfl

/-- Settles O10: the step replaces the one buffer and answers, or refuses what is longer than CAP. -/
theorem writeBufferOperandReplacesItsString : Obligations.WriteBufferOperandReplacesItsString := by
  intro s rest i b queue
  constructor
  · intro fits
    refine ⟨_, step_of_buffer_write queue fits, by simp, fun j other => by simp [other], ?_⟩
    exact congrArg (State.respond · .okay) (writeBuf_changes_only_buffers (s.take rest) i b)
  · intro long
    rw [step_of_write Reg.noConfusion queue, hostWrite_bufOperand_of_long long]
    rfl

/-- The operand ids are those of the integer operand registers and of the buffers (10_state.md R37). -/
theorem mem_operandIds_iff {id : Nat} :
    id ∈ operandIds ↔ (∃ i, id = (Reg.intOperand i).id) ∨ ∃ i, id = (Reg.bufOperand i).id := by
  constructor
  · intro operand
    simp only [operandIds, List.mem_cons, List.not_mem_nil, or_false] at operand
    rcases operand with rfl | rfl | rfl | rfl | rfl | rfl | rfl | rfl
    exacts [.inl ⟨.n, rfl⟩, .inl ⟨.p, rfl⟩, .inl ⟨.q, rfl⟩, .inl ⟨.gf, rfl⟩, .inl ⟨.x, rfl⟩, .inl ⟨.e, rfl⟩,
      .inr ⟨.inp, rfl⟩, .inr ⟨.lbl, rfl⟩]
  · rintro (⟨i, rfl⟩ | ⟨i, rfl⟩) <;> cases i <;> decide

/-- Settles O16: an operand id names a register other than `CMD`, and no such register takes a word. -/
theorem wordToOperandRegisterIsRefused : Obligations.WordToOperandRegisterIsRefused := by
  intro s rest id w operand queue
  obtain ⟨reg, rfl, hreg⟩ : ∃ reg : Reg, id = reg.id ∧ reg ≠ .cmd := by
    rcases mem_operandIds_iff.mp operand with ⟨i, rfl⟩ | ⟨i, rfl⟩
    · exact ⟨.intOperand i, rfl, Reg.noConfusion⟩
    · exact ⟨.bufOperand i, rfl, Reg.noConfusion⟩
  rw [step_of_write hreg queue, hostWrite_word]
  rfl

end Sys2Proof.Proofs
end

section
/-! PROOF. `RD` of each kind of register (40_host_transfers.md R104 to R106): the step answers what the register holds, or
ERROR, and nothing else changes; and a number read back after it was written. -/

namespace Sys2Proof.Proofs

open Sys2Proof Sys2Proof.Machine

theorem readResponse_id (B : Build) (s : State) (reg : Reg) :
    readResponse B s reg.id = (hostRead B s reg).elim .error .data := by
  rw [readResponse, Reg.ofId_id, Option.bind_some]
  cases hostRead B s reg <;> rfl

section
variable {s : State} {reg : Reg} {rest : List Transaction}

theorem step_of_read_some {payload : Payload} (reads : hostRead Config.build s reg = some payload)
    (queue : s.pending = .rd reg.id :: rest) :
    step s = .next { s with pending := rest, responses := s.responses ++ [.data payload] } := by
  rw [step_of_read queue, readResponse_id, reads]
  rfl

/-- The step that reads a register with a valid bit: what it holds, or ERROR when it holds nothing. -/
theorem step_of_read_held {α : Type} {held : Option α} {answer : α → Payload}
    (reads : hostRead Config.build s reg = held.map answer) (queue : s.pending = .rd reg.id :: rest) :
    (∀ v, held = some v → step s = .next { s with
      pending := rest, responses := s.responses ++ [.data (answer v)] }) ∧
    (held = none → step s = .next { s with pending := rest, responses := s.responses ++ [.error] }) := by
  constructor
  · rintro v rfl
    exact step_of_read_some reads queue
  · rintro rfl
    rw [step_of_read queue, readResponse_id, reads]
    rfl

end

/-- Settles O11: the six operand registers answer CAP bytes of what they hold, `R` twice as many. -/
theorem readIntegerRegisterReturnsFullWidth : Obligations.ReadIntegerRegisterReturnsFullWidth := fun _ _ =>
  ⟨fun i => step_of_read_held (reg := .intOperand i) rfl, step_of_read_held (reg := .r) rfl⟩

/-- Settles O12: the three buffers, one by one. -/
theorem readBufferReturnsItsBytes : Obligations.ReadBufferReturnsItsBytes := by
  intro s rest id buf listed
  simp only [List.mem_cons, Prod.mk.injEq, List.not_mem_nil, or_false] at listed
  rcases listed with ⟨rfl, rfl⟩ | ⟨rfl, rfl⟩ | ⟨rfl, rfl⟩
  · exact step_of_read_held (reg := .bufOperand .inp) rfl
  · exact step_of_read_held (reg := .bufOperand .lbl) rfl
  · exact step_of_read_held (reg := .out) rfl

theorem lengthView_eq (buf : Option Bytes) : lengthView buf = BitVec.ofNat 32 (buf.getD []).length := by
  cases buf <;> rfl

/-- Settles O13: the seven control registers, one by one; what `HLENR` reads of a wide `HLEN` is a constant of the build. -/
theorem readControlRegisterReturnsItsWord : Obligations.ReadControlRegisterReturnsItsWord := by
  refine ⟨Config.hlenrTooWide Config.build.hlen, fun s rest id w listed => ?_⟩
  simp only [List.mem_cons, Prod.mk.injEq, List.not_mem_nil, or_false, ← lengthView_eq] at listed
  rcases listed with ⟨rfl, rfl⟩ | ⟨rfl, rfl⟩ | ⟨rfl, rfl⟩ | ⟨rfl, rfl⟩ | ⟨rfl, rfl⟩ | ⟨rfl, rfl⟩ | ⟨rfl, rfl⟩
  · exact step_of_read_some (reg := .status) rfl
  · exact step_of_read_some (reg := .valid) rfl
  · exact step_of_read_some (reg := .hlenr) rfl
  · exact step_of_read_some (reg := .capr) rfl
  · exact step_of_read_some (reg := .inlen) rfl
  · exact step_of_read_some (reg := .lbllen) rfl
  · exact step_of_read_some (reg := .outlen) rfl

/-- Settles O17: the number written is below `256^CAP`, so CAP bytes hold it. -/
theorem integerReadAfterWriteGivesTheValue : Obligations.IntegerReadAfterWriteGivesTheValue := by
  intro s rest i b queue fits
  obtain ⟨t, writes, held, -, frame⟩ := (writeIntegerOperandReplacesItsValue s _ i b queue).1 fits
  have queued : t.pending = .rd (Reg.intOperand i).id :: rest := congrArg State.pending frame
  have answered : t.responses = s.responses ++ [.okay] := congrArg State.responses frame
  have reads := (step_of_read_held (reg := .intOperand i) rfl queued).1 _ held
  refine ⟨t, _, intToBytes (bytesToInt b) Config.build.cap, writes, reads, by simp [answered], intToBytes_length _ _, ?_⟩
  rw [bytesToInt_intToBytes, Nat.mod_eq_of_lt (bytesToInt_lt_of_length_le fits)]

end Sys2Proof.Proofs
end

section
/-! PROOF. Which transactions the port refuses (40_host_transfers.md R103, R108). A command word is never refused, because every
command ends; the refused writes and reads are those of R108's cases (a) to (f). -/

namespace Sys2Proof.Proofs

open Sys2Proof Sys2Proof.Machine

/-! ### Every command ends -/

/-- The command that started in `s` ended in `t`: in OK or FAIL (60_exceptions.md R195, R196), the port as it was. -/
structure EndsIn (s t : State) : Prop where
  pending : t.pending = s.pending
  responses : t.responses = s.responses
  status : statusState t.status = 1 ∨ statusState t.status = 2

section
variable {B : Build} {s t : State}

theorem statusState_statusWord (c : Failure) : statusState c.statusWord = 2 := by cases c <;> decide

theorem endsIn_fail {c : Failure} (pending : t.pending = s.pending) (responses : t.responses = s.responses) :
    EndsIn s (t.fail c) :=
  ⟨pending, responses, .inr (statusState_statusWord c)⟩

theorem endsIn_done (pending : t.pending = s.pending) (responses : t.responses = s.responses) : EndsIn s t.done :=
  ⟨pending, responses, .inl rfl⟩

/-- Every command ends; `CRT_MODPOW` because the invariant leaves it no modulus below 2 past `E_MOD_ZERO`
(10_state.md R27; 41_crt_modpow.md R128). -/
theorem commandIn_ends (h : s.Inv B) (i : Instr) : ∃ t, commandIn B i s = .next t ∧ EndsIn s t := by
  cases i with
  | cmLoad =>
    rcases execCmLoad_cases s with ⟨c, eq⟩ | ⟨n, p, q, gf, -, -, -, -, -, -, -, -, eq⟩
    · exact ⟨_, eq, endsIn_fail rfl rfl⟩
    · exact ⟨_, eq, endsIn_done rfl rfl⟩
  | crtModpow =>
    rcases execCrtModpow_cases s with ⟨c, eq⟩ | ⟨m, x, exp, hcm, -, -, p_ne, q_ne, eq⟩
    · exact ⟨_, eq, endsIn_fail rfl rfl⟩
    · obtain ⟨-, p_pos, q_pos, -⟩ := h.modulus m hcm
      rw [if_neg (by omega)] at eq
      exact ⟨_, eq, endsIn_done rfl rfl⟩
  | mgf1 len =>
    rcases mgf1Command_cases B len s with ⟨c, eq⟩ | ⟨seed, -, -, eq⟩
    · exact ⟨_, eq, endsIn_fail rfl rfl⟩
    · exact ⟨_, eq, endsIn_done rfl rfl⟩
  | oaepPad =>
    rcases oaepPadCommand_cases B s with ⟨c, eq⟩ | ⟨n, m, label, -, -, -, -, eq⟩
    · exact ⟨_, eq, endsIn_fail rfl rfl⟩
    · exact ⟨_, eq, endsIn_done rfl rfl⟩
  | oaepUnpad =>
    rcases oaepUnpadCommand_cases B s with ⟨c, calls, -, eq⟩ | ⟨em, label, m, -, -, -, -, -, -, eq⟩
    · exact ⟨_, eq, endsIn_fail rfl rfl⟩
    · exact ⟨_, eq, endsIn_done rfl rfl⟩

theorem runWord_ends (h : s.Inv B) (w : Word) : ∃ t, runWord (commandIn B) w s = .next t ∧ EndsIn s t := by
  cases decoded : decode w with
  | ok i =>
    rw [runWord_of_decode_ok decoded]
    exact commandIn_ends h i
  | error reason =>
    exact ⟨s.beginCommand.fail .illegalCmd, runWord_of_decode_error decoded s, endsIn_fail rfl rfl⟩

end

/-- Settles O20: the word runs after the port has answered, and whatever it decodes to ends. -/
theorem commandWriteIsAlwaysAnsweredOkay : Obligations.CommandWriteIsAlwaysAnsweredOkay := by
  intro s w rest inv queue
  obtain ⟨t, eq, pending, responses, status⟩ := runWord_ends (inv_respond (inv_take inv rest) .okay) w
  refine ⟨t, ?_, pending, responses, status⟩
  rw [step_of_command_word queue, funext₂ exec_eq_commandIn, eq]

/-! ### Refused and accepted writes -/

section
variable {B : Build} {s : State} {id : Nat} {payload : Payload}

theorem ofId_of_mem_readOnlyIds (readOnly : id ∈ readOnlyIds) :
    ∃ reg, Reg.ofId id = some reg ∧ reg ≠ .cmd ∧ ∀ u, hostWrite B reg payload u = u.respond .error := by
  simp only [readOnlyIds, List.mem_cons, List.not_mem_nil, or_false] at readOnly
  rcases readOnly with rfl | rfl | rfl | rfl | rfl | rfl | rfl | rfl | rfl <;>
    exact ⟨_, rfl, Reg.noConfusion, fun _ => rfl⟩

/-- A write in one of R108's cases (a), (c), (d), (f) is answered ERROR and nothing else happens. -/
theorem transact_of_refused_write (run : Instr → State → Result) (refused : RefusedCase B s (.wr id payload)) (u : State) :
    transact B run (.wr id payload) u = .next (u.respond .error) := by
  rcases refused with readOnly | unnamed | ⟨operand, b, rfl, long⟩ | ⟨rfl, notWord⟩
  · obtain ⟨reg, hid, hreg, refuses⟩ := ofId_of_mem_readOnlyIds (B := B) (payload := payload) readOnly
    rw [transact_wr_of_ofId hid hreg, refuses]
  · simp only [transact, ofId_eq_none_of_unnamed unnamed]
  · rcases mem_operandIds_iff.mp operand with ⟨i, rfl⟩ | ⟨i, rfl⟩
    · rw [transact_wr_of_ofId (Reg.ofId_id (.intOperand i)) Reg.noConfusion, hostWrite_intOperand_of_long long]
    · rw [transact_wr_of_ofId (Reg.ofId_id (.bufOperand i)) Reg.noConfusion, hostWrite_bufOperand_of_long long]
  · cases payload with
    | bytes b => rfl
    | word w => exact absurd rfl (notWord w)

/-- What is left outside the refused cases, with no word offered to an operand register: a command word, or a byte string
that fits its operand register. -/
theorem accepted_write_cases (accepted : ¬ RefusedCase B s (.wr id payload))
    (noWord : ∀ w, payload = .word w → id ∉ operandIds) :
    (id = 0x10 ∧ ∃ w, payload = .word w) ∨ ∃ b, payload = .bytes b ∧ b.length ≤ B.cap ∧
      ((∃ i, id = (Reg.intOperand i).id) ∨ ∃ i, id = (Reg.bufOperand i).id) := by
  simp only [RefusedCase, not_or, not_and, not_not, not_exists] at accepted
  obtain ⟨notReadOnly, named, fits, commandTakesWord⟩ := accepted
  simp only [namedIds, List.mem_append, List.mem_singleton, notReadOnly, or_false] at named
  rcases named with operand | rfl
  · cases payload with
    | bytes b => exact .inr ⟨b, rfl, Nat.le_of_not_lt (fits operand b rfl), mem_operandIds_iff.mp operand⟩
    | word w => exact absurd operand (noWord w rfl)
  · exact .inl ⟨rfl, by simpa using commandTakesWord rfl⟩

/-! ### Refused reads -/

theorem hostRead_eq_none_iff (reg : Reg) : hostRead B s reg = none ↔ reg.id = 0x10 ∨ s.HoldsNothing reg.id := by
  cases reg with
  | intOperand i => cases i <;> simp [hostRead, State.readInt, State.HoldsNothing, Reg.id]
  | bufOperand i => cases i <;> simp [hostRead, State.readBuf, State.HoldsNothing, Reg.id]
  | _ => simp [hostRead, State.HoldsNothing, Reg.id]

theorem not_mem_namedIds_of_ofId_eq_none {id : Nat} (h : Reg.ofId id = none) : id ∉ namedIds :=
  fun named => (show ∀ id ∈ namedIds, Reg.ofId id ≠ none by decide) id named h

/-- R108's cases (b), (c), (e) are the reads answered ERROR. -/
theorem refused_read_iff : RefusedCase B s (.rd id) ↔ readResponse B s id = .error := by
  cases found : Reg.ofId id with
  | none =>
    have unnamed := not_mem_namedIds_of_ofId_eq_none found
    exact iff_of_true (.inr (.inl unnamed)) (by simp only [readResponse, found, Option.bind_none])
  | some reg =>
    obtain rfl := reg_id_eq_of_ofId found
    calc RefusedCase B s (.rd reg.id)
        ↔ reg.id = 0x10 ∨ s.HoldsNothing reg.id := by simp [RefusedCase, reg_id_mem_namedIds]
      _ ↔ hostRead B s reg = none := (hostRead_eq_none_iff reg).symm
      _ ↔ readResponse B s reg.id = .error := by rw [readResponse_id]; cases hostRead B s reg <;> simp

end

/-- Settles O15: a read answers ERROR exactly in its cases; a write in no case is a command word, which ends under the
invariant, or a byte string that fits its operand register. -/
theorem refusalsAreExactlyTheListedCases : Obligations.RefusalsAreExactlyTheListedCases := by
  intro s t rest queue notReset noWord
  cases t with
  | reset => exact absurd rfl notReset
  | rd id =>
    constructor
    · intro refused
      rw [step_of_read queue, refused_read_iff.mp refused]
      rfl
    · exact fun accepted _ => ⟨_, _, step_of_read queue, fun error => accepted (refused_read_iff.mpr error), rfl⟩
  | wr id payload =>
    constructor
    · intro refused
      rw [step_of_pending queue, transact_of_refused_write exec refused]
      rfl
    · intro accepted inv
      rcases accepted_write_cases accepted (fun w word => noWord id w (by rw [word])) with
        ⟨rfl, w, rfl⟩ | ⟨b, rfl, fits, ⟨i, rfl⟩ | ⟨i, rfl⟩⟩
      · obtain ⟨u, runs, -, answered, -⟩ := commandWriteIsAlwaysAnsweredOkay s w rest inv queue
        exact ⟨u, .okay, runs, Response.noConfusion, answered⟩
      · exact ⟨_, .okay, step_of_integer_write queue fits, Response.noConfusion, by simp⟩
      · exact ⟨_, .okay, step_of_buffer_write queue fits, Response.noConfusion, by simp⟩

end Sys2Proof.Proofs
end

section
/-! PROOF. The CompositeModulus family (41_crt_modpow.md): `CM_LOAD` (R121); `CRT_MODPOW`'s value (R126), its bound (R129),
that it leaves `CM.n` out (R131), and when it is the power modulo `CM.n` (R132, R133). -/

namespace Sys2Proof.Proofs

open Sys2Proof Sys2Proof.Machine

/-! ### CM_LOAD -/

theorem execCmLoad_of_missing {s : State} (missing : s.n = none ∨ s.p = none ∨ s.q = none ∨ s.gf = none) :
    execCmLoad s = .next (s.beginCommand.fail .missingOperand) := by
  unfold execCmLoad
  simp only [State.beginCommand_n, State.beginCommand_p, State.beginCommand_q, State.beginCommand_gf]
  split
  · next hn hp hq hgf => simp [hn, hp, hq, hgf] at missing
  · rfl

theorem execCmLoad_of_operands {s : State} {n p q gf : Nat} (hn : s.n = some n) (hp : s.p = some p) (hq : s.q = some q)
    (hgf : s.gf = some gf) :
    execCmLoad s =
      if n = 0 ∨ p = 0 ∨ q = 0 ∨ gf = 0 then .next (s.beginCommand.fail .cmNonpositive)
      else .next (s.beginCommand.setCm { n := n, p := p, q := q, gf := gf }).done := by
  unfold execCmLoad
  simp only [State.beginCommand_n, State.beginCommand_p, State.beginCommand_q, State.beginCommand_gf, hn, hp, hq, hgf]

/-- Settles O24: presence first, then positivity; each branch's state is the listed one. -/
theorem cmLoadLatchesPositiveOperands : Obligations.CmLoadLatchesPositiveOperands := by
  intro s
  refine ⟨fun n p q gf hn hp hq hgf n0 p0 q0 gf0 => ?_, execCmLoad_of_missing, fun n p q gf hn hp hq hgf zero => ?_⟩
  · refine (execCmLoad_of_operands hn hp hq hgf).trans (if_neg ?_)
    simp [n0, p0, q0, gf0]
  · exact (execCmLoad_of_operands hn hp hq hgf).trans (if_pos zero)

/-! ### CRT_MODPOW: the outcome from its operands -/

theorem execCrtModpow_of_missing {s : State} (missing : s.cm = none ∨ s.x = none ∨ s.e = none) :
    execCrtModpow s = .next (s.beginCommand.fail .missingOperand) := by
  unfold execCrtModpow
  simp only [State.beginCommand_cm, State.beginCommand_x, State.beginCommand_e]
  split
  · next hcm hx he => simp [hcm, hx, he] at missing
  · rfl

section
variable {s : State} {m : CompositeModulus} {x exp : Nat} (hcm : s.cm = some m) (hx : s.x = some x) (he : s.e = some exp)
include hcm hx he

/-- `p - 1 = 0` or `q - 1 = 0` fails before any port call (41_crt_modpow.md R128). -/
theorem execCrtModpow_of_modulus_one (one : m.p = 1 ∨ m.q = 1) :
    execCrtModpow s = .next (s.beginCommand.fail .modZero) := by
  unfold execCrtModpow
  simp only [State.beginCommand_cm, State.beginCommand_x, State.beginCommand_e, hcm, hx, he]
  rw [if_pos one]

theorem execCrtModpow_of_moduli (hp : 2 ≤ m.p) (hq : 2 ≤ m.q) :
    execCrtModpow s = .next ((s.beginCommand.record
      [.modExp x (exp % (m.p - 1)) m.p, .modExp x (exp % (m.q - 1)) m.q]).setR
        (garner m.p m.q m.gf (x ^ (exp % (m.p - 1)) % m.p) (x ^ (exp % (m.q - 1)) % m.q))).done := by
  rw [execCrtModpow_of_operands hcm hx he (by omega) (by omega), if_neg (by omega)]

end

/-! ### R126, R129: Garner's value and its bound -/

/-- Garner's value over the integers (41_crt_modpow.md R129; 00_scope.md R14). -/
theorem garner_cast {p : Nat} (q gf a b : Nat) (hp : 0 < p) :
    (garner p q gf a b : Int) = ((a : Int) - b) % p * gf % p * q + b := by
  have nonneg := Int.emod_nonneg (((a : Int) - b) % p * gf) (b := (p : Int)) (by omega)
  simp only [garner, Nat.cast_add, Nat.cast_mul, Int.toNat_of_nonneg nonneg]

/-- Settles O25: the value is Garner's, cast to the integers; a missing operand or a modulus 1 fails first. -/
theorem crtModpowComputesGarnersValue : Obligations.CrtModpowComputesGarnersValue := by
  intro s
  refine ⟨fun m x exp hcm hx he hp hq => ?_, execCrtModpow_of_missing, fun m x exp => execCrtModpow_of_modulus_one⟩
  exact ⟨_, execCrtModpow_of_moduli hcm hx he hp hq, garner_cast _ _ _ _ (by omega)⟩

/-- Settles O26: past the checks both moduli are positive, so Garner's value is in its range. -/
theorem crtResultIsBelowPTimesQ : Obligations.CrtResultIsBelowPTimesQ := by
  intro s t m v hcm hnext hr
  change execCrtModpow s = _ at hnext
  rcases execCrtModpow_cases s with ⟨c, eq⟩ | ⟨m', x, exp, hcm', -, -, -, -, eq⟩
  · cases eq.symm.trans hnext
    cases hr
  · cases hcm.symm.trans hcm'
    split_ifs at eq with below <;> cases eq.symm.trans hnext
    cases hr
    exact garner_lt _ _ (by omega) (Nat.mod_lt _ (by omega))

/-! ### R131: `CM.n` takes no part -/

/-- Settles O27: every branch is chosen, and every value computed, without `CM.n`. -/
theorem crtResultDoesNotDependOnN : Obligations.CrtResultDoesNotDependOnN := by
  intro s t m n' hcm hnext
  change execCrtModpow s = _ at hnext
  change execCrtModpow (s.setCm { m with n := n' }) = _
  by_cases missing : s.x = none ∨ s.e = none
  · cases (execCrtModpow_of_missing (.inr missing)).symm.trans hnext
    exact execCrtModpow_of_missing (.inr missing)
  · push Not at missing
    obtain ⟨⟨x, hx⟩, exp, he⟩ := missing.imp Option.ne_none_iff_exists'.mp Option.ne_none_iff_exists'.mp
    by_cases one : m.p = 1 ∨ m.q = 1
    · cases (execCrtModpow_of_modulus_one hcm hx he one).symm.trans hnext
      exact execCrtModpow_of_modulus_one rfl hx he one
    · obtain ⟨p_ne, q_ne⟩ := not_or.mp one
      rw [execCrtModpow_of_operands hcm hx he p_ne q_ne] at hnext
      refine (execCrtModpow_of_operands (s := s.setCm { m with n := n' }) rfl hx he p_ne q_ne).trans ?_
      split_ifs at hnext ⊢ with below
      cases hnext
      rfl

/-! ### R132: when the result is the power modulo `CM.n` -/

theorem garner_modEq_right (p q gf a b : Nat) : garner p q gf a b ≡ b [MOD q] := by
  simp [garner, Nat.ModEq]

/-- With `gf` the inverse of `q` modulo `p`, Garner's value is `a` modulo `p`. -/
theorem garner_modEq_left {p q gf : Nat} (a b : Nat) (hp : 0 < p) (inverse : gf * q ≡ 1 [MOD p]) :
    garner p q gf a b ≡ a [MOD p] := by
  rw [← Int.natCast_modEq_iff] at inverse ⊢
  rw [garner_cast _ _ _ _ hp]
  calc ((a : Int) - b) % p * gf % p * q + b
    _ ≡ (a - b) * gf * q + b [ZMOD p] :=
      (((Int.mod_modEq _ _).trans ((Int.mod_modEq _ _).mul_right _)).mul_right _).add_right _
    _ = (a - b) * (gf * q : Nat) + b := by push_cast; ring
    _ ≡ (a - b) * (1 : Nat) + b [ZMOD p] := (inverse.mul_left _).add_right _
    _ = a := by push_cast; ring

/-- A multiple of `r` to the power `k` is 0 modulo `r`, or 1 for `k = 0`. -/
theorem pow_mod_of_dvd {r x : Nat} (hr : 1 < r) (divides : r ∣ x) (k : Nat) : x ^ k % r = if k = 0 then 1 else 0 := by
  split
  · next zero => rw [zero, pow_zero, Nat.mod_eq_of_lt hr]
  · next positive => exact Nat.mod_eq_zero_of_dvd (dvd_pow divides positive)

/-- Reducing the exponent modulo `r - 1` keeps the power modulo the prime `r`, except when it turns a positive exponent of a
multiple of `r` into 0. -/
theorem pow_mod_pred_modEq_iff {r : Nat} (hr : r.Prime) (x exp : Nat) :
    x ^ (exp % (r - 1)) ≡ x ^ exp [MOD r] ↔ ¬ (r ∣ x ∧ 1 ≤ exp ∧ (r - 1) ∣ exp) := by
  by_cases divides : r ∣ x
  · rw [Nat.ModEq, pow_mod_of_dvd hr.one_lt divides, pow_mod_of_dvd hr.one_lt divides]
    by_cases zero : exp = 0
    · simp [zero]
    · by_cases turns : r - 1 ∣ exp <;> simp [zero, turns, divides, ← Nat.dvd_iff_mod_eq_zero, Nat.one_le_iff_ne_zero]
  · have coprime : x.Coprime r := ((hr.coprime_iff_not_dvd).mpr divides).symm
    have fermat := Nat.pow_totient_mod (k := exp) hr.one_lt coprime
    rw [Nat.totient_prime hr] at fermat
    exact iff_of_true fermat.symm fun h => divides h.1

/-- Settles O28: modulo `p` and modulo `q` the result is the power with the exponent reduced, and by the Chinese remainder
theorem the two residues settle it modulo `p*q`. -/
theorem crtEqualsDirectPowerExactlyWhen : Obligations.CrtEqualsDirectPowerExactlyWhen := by
  intro s m x exp hcm hx he primeP primeQ distinct product inverse
  refine ⟨_, _, execCrtModpow_of_moduli hcm hx he primeP.two_le primeQ.two_le, rfl, ?_⟩
  have coprime : m.p.Coprime m.q := (Nat.coprime_primes primeP primeQ).mpr distinct
  have inverse' : m.gf * m.q ≡ 1 [MOD m.p] := by rw [Nat.ModEq, inverse, Nat.mod_eq_of_lt primeP.one_lt]
  generalize hv : garner m.p m.q m.gf (x ^ (exp % (m.p - 1)) % m.p) (x ^ (exp % (m.q - 1)) % m.q) = v
  have bound : v < m.p * m.q := hv ▸ garner_lt _ _ primeP.pos (Nat.mod_lt _ primeQ.pos)
  have residueP : v ≡ x ^ (exp % (m.p - 1)) [MOD m.p] :=
    hv ▸ (garner_modEq_left _ _ primeP.pos inverse').trans (Nat.mod_modEq _ _)
  have residueQ : v ≡ x ^ (exp % (m.q - 1)) [MOD m.q] := hv ▸ (garner_modEq_right _ _ _ _ _).trans (Nat.mod_modEq _ _)
  calc v = x ^ exp % m.n
    _ ↔ v ≡ x ^ exp [MOD m.p * m.q] := by rw [product, Nat.ModEq, Nat.mod_eq_of_lt bound]
    _ ↔ v ≡ x ^ exp [MOD m.p] ∧ v ≡ x ^ exp [MOD m.q] := (Nat.modEq_and_modEq_iff_modEq_mul coprime).symm
    _ ↔ x ^ (exp % (m.p - 1)) ≡ x ^ exp [MOD m.p] ∧ x ^ (exp % (m.q - 1)) ≡ x ^ exp [MOD m.q] :=
      and_congr ⟨residueP.symm.trans, residueP.trans⟩ ⟨residueQ.symm.trans, residueQ.trans⟩
    _ ↔ ∀ r ∈ [m.p, m.q], ¬ (r ∣ x ∧ 1 ≤ exp ∧ (r - 1) ∣ exp) := by
      rw [pow_mod_pred_modEq_iff primeP, pow_mod_pred_modEq_iff primeQ, List.forall_mem_cons, List.forall_mem_singleton]

/-! ### R133 (a): exponent 0 -/

theorem garner_one_one (p q gf : Nat) : garner p q gf 1 1 = 1 := by simp [garner]

/-- Settles O29: both powers are 1, so Garner's `h` is 0 and the result is 1. -/
theorem crtWithExponentZeroGivesOne : Obligations.CrtWithExponentZeroGivesOne := by
  intro s m x hcm hx he hp hq
  refine ⟨_, execCrtModpow_of_moduli hcm hx he hp hq, ?_, rfl⟩
  simp [Nat.mod_eq_of_lt hp, Nat.mod_eq_of_lt hq, garner_one_one]

end Sys2Proof.Proofs
end

section
/-! PROOF. The calls on the ports: those of the mask function, in closed form (42_mgf1.md R142), those of pad and of unpad,
how many a command makes (70_reset_and_hazards.md R226), and the moduli `ModExp` is called with (41_crt_modpow.md R128). -/

namespace Sys2Proof.Proofs

open Sys2Proof Sys2Proof.Machine

section
variable {B : Build} {s t : State}

/-! ### The calls of the mask function -/

@[simp] theorem hashCount_zero (B : Build) : hashCount B 0 = 0 :=
  Nat.div_eq_of_lt (by have := B.hlen_pos; omega)

/-- One digest covers `HLEN` of the bytes that are missing. -/
theorem hashCount_of_pos {len : Nat} (h : 0 < len) : hashCount B len = hashCount B (len - B.hlen) + 1 := by
  have hpos := B.hlen_pos
  by_cases last : len ≤ B.hlen
  · rw [Nat.sub_eq_zero_of_le last, hashCount_zero, hashCount]
    exact Nat.div_eq_of_lt_le (by omega) (by omega)
  · rw [hashCount, hashCount, ← Nat.add_div_right _ hpos]
    congr 1
    omega

@[simp] theorem hashCount_hlen (B : Build) : hashCount B B.hlen = 1 := by
  rw [hashCount_of_pos B.hlen_pos, Nat.sub_self, hashCount_zero]

/-- With fuel for what is missing, the loop hashes once per `HLEN` missing bytes, the counter going up from where it stands. -/
theorem mgf1Loop_calls (B : Build) (seed : Bytes) (len fuel ctr : Nat) (acc : Bytes) (h : len ≤ acc.length + fuel) :
    (mgf1Loop B seed len fuel (BitVec.ofNat 32 ctr) acc).2 =
      (List.range' ctr (hashCount B (len - acc.length))).map (fun i => .hash (seed ++ be32 (BitVec.ofNat 32 i))) := by
  induction fuel generalizing ctr acc with
  | zero =>
    have full : len - acc.length = 0 := by omega
    simp [mgf1Loop, full]
  | succ fuel ih =>
    have hpos := B.hlen_pos
    unfold mgf1Loop
    split
    · next short =>
      have next : BitVec.ofNat 32 ctr + 1#32 = BitVec.ofNat 32 (ctr + 1) := (BitVec.ofNat_add ..).symm
      have grown : len - (acc ++ B.hash (seed ++ be32 (BitVec.ofNat 32 ctr))).length = len - acc.length - B.hlen := by
        rw [List.length_append, B.hash_length, Nat.sub_sub]
      have rounds : hashCount B (len - acc.length) = hashCount B (len - acc.length - B.hlen) + 1 :=
        hashCount_of_pos (by omega)
      simp only [hashPort_fst, hashPort_snd, next]
      rw [ih _ _ (by omega), grown, rounds, List.range'_succ]
      rfl
    · next full => simp [Nat.sub_eq_zero_of_le (not_lt.mp full)]

/-- `MGF1(seed, L)` makes the calls of its closed form (42_mgf1.md R142). -/
@[simp] theorem mgf1_calls (B : Build) (seed : Bytes) (len : Nat) : (mgf1 B seed len).2 = maskCalls B seed len := by
  rw [maskCalls, List.range_eq_range']
  exact mgf1Loop_calls B seed len len 0 [] (by simp)

@[simp] theorem maskCalls_length (B : Build) (seed : Bytes) (len : Nat) :
    (maskCalls B seed len).length = hashCount B len := by
  simp [maskCalls]

/-- Every call of the mask function is one of `Hash`. -/
@[simp] theorem modExp_notMem_maskCalls (B : Build) (seed : Bytes) (len base exp modulus : Nat) :
    .modExp base exp modulus ∉ maskCalls B seed len := by
  simp [maskCalls]

/-! ### The calls of masking and unmasking -/

@[simp] theorem oaepMask_calls_length (B : Build) (seed db : Bytes) :
    (oaepMask B seed db).2.length = hashCount B db.length + 1 := by
  simp [oaepMask]

@[simp] theorem modExp_notMem_oaepMask_calls (B : Build) (seed db : Bytes) (base exp modulus : Nat) :
    .modExp base exp modulus ∉ (oaepMask B seed db).2 := by
  simp [oaepMask]

@[simp] theorem oaepUnmask_calls_length (B : Build) (em : Bytes) :
    (oaepUnmask B em).2.length = hashCount B (em.length - B.hlen - 1) + 1 := by
  simp [oaepUnmask, Nat.add_comm]

@[simp] theorem modExp_notMem_oaepUnmask_calls (B : Build) (em : Bytes) (base exp modulus : Nat) :
    .modExp base exp modulus ∉ (oaepUnmask B em).2 := by
  simp [oaepUnmask]

/-! ### The calls a command has made when it ends -/

theorem execCmLoad_trace (h : execCmLoad s = .next t) : t.trace = s.trace := by
  rcases execCmLoad_cases s with ⟨c, eq⟩ | ⟨n, p, q, gf, -, -, -, -, -, -, -, -, eq⟩ <;> cases eq.symm.trans h <;> rfl

/-- `CRT_MODPOW` has called nothing, or `ModExp` for `p` and for `q`, each 2 or more (41_crt_modpow.md R126, R128). -/
theorem execCrtModpow_trace (h : execCrtModpow s = .next t) :
    t.trace = s.trace ∨ ∃ x expP p expQ q, 2 ≤ p ∧ 2 ≤ q ∧ t.trace = s.trace ++ [.modExp x expP p, .modExp x expQ q] := by
  rcases execCrtModpow_cases s with ⟨c, eq⟩ | ⟨m, x, exp, -, -, -, -, -, eq⟩
  · cases eq.symm.trans h
    exact .inl rfl
  · split_ifs at eq with below <;> cases eq.symm.trans h
    exact .inr ⟨_, _, _, _, _, by omega, by omega, rfl⟩

theorem mgf1Command_trace {len : Nat} (h : mgf1Command B len s = .next t) :
    t.trace = s.trace ∨ ∃ seed, t.trace = s.trace ++ maskCalls B seed len := by
  rcases mgf1Command_cases B len s with ⟨c, eq⟩ | ⟨seed, -, -, eq⟩ <;> cases eq.symm.trans h
  · exact .inl rfl
  · exact .inr ⟨seed, by simp⟩

/-- `OAEP_PAD` has called nothing, or the label's hash, the draw and the masks of its DB (43_oaep.md R162). -/
theorem oaepPadCommand_trace (h : oaepPadCommand B s = .next t) :
    t.trace = s.trace ∨ ∃ n labelArg seed db, s.n = some n ∧ db.length = bytelen n - B.hlen - 1 ∧
      t.trace = s.trace ++ ([.hash labelArg, .rand B.hlen] ++ (oaepMask B seed db).2) := by
  rcases oaepPadCommand_cases B s with ⟨c, eq⟩ | ⟨n, m, label, hn, -, -, fits, eq⟩ <;> cases eq.symm.trans h
  · exact .inl rfl
  · exact .inr ⟨n, label ++ [0x00#8], s.randAnswer B B.hlen, _, hn,
      dataBlock_length _ _ _ _ (B.hash_length (label ++ [0x00#8])) fits, by simp [paddedState]⟩

/-- The calls of an unpad that fails are the first few of those that one makes which succeeds (43_oaep.md R175). -/
theorem prefix_of_mem_unpadFailureCalls {calls : List PortCall} (made : calls ∈ unpadFailureCalls B s) :
    calls = [] ∨ ∃ em label, s.inp = some em ∧ calls <+: (oaepUnmask B em).2 ++ [.hash (label ++ [0x00#8])] := by
  unfold unpadFailureCalls at made
  split at made
  · next em label hem _ =>
    simp only [List.mem_cons, List.not_mem_nil, or_false] at made
    rcases made with rfl | rfl | rfl
    · exact .inl rfl
    · exact .inr ⟨em, label, hem, List.prefix_append _ _⟩
    · exact .inr ⟨em, label, hem, List.prefix_refl _⟩
  · exact .inl (List.mem_singleton.mp made)

/-- `OAEP_UNPAD` has called nothing, or begun the calls of the masks and the label's hash (43_oaep.md R175). -/
theorem oaepUnpadCommand_trace (h : oaepUnpadCommand B s = .next t) :
    t.trace = s.trace ∨ ∃ em label calls, s.inp = some em ∧
      calls <+: (oaepUnmask B em).2 ++ [.hash (label ++ [0x00#8])] ∧ t.trace = s.trace ++ calls := by
  rcases oaepUnpadCommand_cases B s with ⟨c, calls, made, eq⟩ | ⟨em, label, m, hem, -, -, -, -, -, eq⟩ <;>
    cases eq.symm.trans h
  · obtain rfl | ⟨em, label, hem, begun⟩ := prefix_of_mem_unpadFailureCalls made
    · exact .inl (by simp)
    · exact .inr ⟨em, label, calls, hem, begun, rfl⟩
  · exact .inr ⟨em, label, _, hem, List.prefix_refl _, by simp⟩

end

/-! ### R226: how many calls -/

/-- Settles O53: the calls counted, with one `Hash` for a mask of `HLEN` bytes. -/
theorem portCallsOfACommandAreBounded : Obligations.PortCallsOfACommandAreBounded := by
  intro s t
  refine ⟨execCmLoad_trace, fun h => ?_, fun len h => ?_, fun n hn h => ?_, fun em hem h => ?_⟩
  · obtain trace | ⟨x, expP, p, expQ, q, -, -, trace⟩ := execCrtModpow_trace h <;> simp [trace]
  · obtain trace | ⟨seed, trace⟩ := mgf1Command_trace h <;> simp [trace]
  · obtain trace | ⟨n', labelArg, seed, db, hn', length, trace⟩ := oaepPadCommand_trace h
    · rw [trace]
      omega
    · cases hn.symm.trans hn'
      simp only [trace, ← length, List.length_append, List.length_cons, List.length_nil, oaepMask_calls_length]
      omega
  · obtain trace | ⟨em', label, calls, hem', begun, trace⟩ := oaepUnpadCommand_trace h
    · rw [trace]
      omega
    · cases hem.symm.trans hem'
      have count := begun.length_le
      simp only [List.length_append, oaepUnmask_calls_length, List.length_singleton] at count
      rw [trace, List.length_append]
      omega

/-! ### R128: the moduli `ModExp` is called with -/

/-- Settles O30: only `CRT_MODPOW` calls `ModExp`, and its moduli are 2 or more; every other call is of another port. -/
theorem modExpIsOnlyCalledWithModulusTwoOrMore : Obligations.ModExpIsOnlyCalledWithModulusTwoOrMore := by
  intro i s t h base exp modulus called
  cases i with
  | cmLoad => exact .inl (execCmLoad_trace h ▸ called)
  | crtModpow =>
    obtain trace | ⟨x, expP, p, expQ, q, hp, hq, trace⟩ := execCrtModpow_trace h
    · exact .inl (trace ▸ called)
    · simp only [trace, List.mem_append, List.mem_cons, List.not_mem_nil, or_false, PortCall.modExp.injEq] at called
      rcases called with old | ⟨-, -, rfl⟩ | ⟨-, -, rfl⟩
      · exact .inl old
      · exact .inr hp
      · exact .inr hq
  | mgf1 len =>
    obtain trace | ⟨seed, trace⟩ := mgf1Command_trace h
    · exact .inl (trace ▸ called)
    · exact .inl (by simpa [trace] using called)
  | oaepPad =>
    obtain trace | ⟨n, labelArg, seed, db, -, -, trace⟩ := oaepPadCommand_trace h
    · exact .inl (trace ▸ called)
    · exact .inl (by simpa [trace] using called)
  | oaepUnpad =>
    obtain trace | ⟨em, label, calls, -, begun, trace⟩ := oaepUnpadCommand_trace h
    · exact .inl (trace ▸ called)
    · rw [trace, List.mem_append] at called
      exact called.imp_right fun new => absurd (begun.subset new) (by simp)

end Sys2Proof.Proofs
end

section
/-! PROOF. The mask function (42_mgf1.md R141): its bytes in closed form (R142, R144), so that the masks of one seed are
beginnings of one another; and the `MGF1` command (R145, R147). -/

namespace Sys2Proof.Proofs

open Sys2Proof Sys2Proof.Machine

section
variable {B : Build} {seed : Bytes}

/-! ### The bytes of a mask -/

/-- `b` is a beginning of the mask of `seed`: its byte j is byte `j mod HLEN` of digest number `floor(j/HLEN)`
(42_mgf1.md R144). -/
def IsMask (B : Build) (seed b : Bytes) : Prop :=
  ∀ j, j < b.length → b[j]? = (B.hash (seed ++ be32 (BitVec.ofNat 32 (j / B.hlen))))[j % B.hlen]?

theorem isMask_nil : IsMask B seed [] := fun _ h => absurd h (Nat.not_lt_zero _)

/-- After `ctr` whole digests, digest number `ctr` continues the mask. -/
theorem IsMask.append_digest {b : Bytes} (mask : IsMask B seed b) {ctr : Nat} (aligned : b.length = ctr * B.hlen) :
    IsMask B seed (b ++ B.hash (seed ++ be32 (BitVec.ofNat 32 ctr))) := by
  intro j hj
  rw [List.length_append, B.hash_length] at hj
  by_cases old : j < b.length
  · rw [List.getElem?_append_left old, mask j old]
  · obtain ⟨i, rfl⟩ := Nat.exists_eq_add_of_le (not_lt.mp old)
    have hi : i < B.hlen := by omega
    rw [List.getElem?_append_right (Nat.le_add_right _ _), Nat.add_sub_cancel_left, aligned, Nat.mul_add_mod_of_lt hi,
      Nat.add_div_of_dvd_right (Dvd.intro_left _ rfl), Nat.mul_div_cancel _ B.hlen_pos, Nat.div_eq_of_lt hi, Nat.add_zero]

theorem IsMask.take {b : Bytes} (mask : IsMask B seed b) (len : Nat) : IsMask B seed (b.take len) := by
  intro j hj
  rw [List.length_take] at hj
  rw [List.getElem?_take_of_lt (by omega), mask j (by omega)]

/-- A mask is settled by its seed and its length: the shorter of two begins the longer (42_mgf1.md R147 e). -/
theorem IsMask.eq_take {short long : Bytes} (maskS : IsMask B seed short) (maskL : IsMask B seed long)
    (h : short.length ≤ long.length) : short = long.take short.length := by
  refine List.ext_getElem?' fun j hj => ?_
  have inShort : j < short.length := by simpa [h] using hj
  rw [List.getElem?_take_of_lt inShort, maskS j inShort, maskL j (by omega)]

/-- The loop's invariant: the accumulator is the mask up to the counter's whole digests (42_mgf1.md R141). -/
theorem mgf1Loop_isMask (len fuel : Nat) {ctr : Nat} {acc : Bytes} (aligned : acc.length = ctr * B.hlen)
    (mask : IsMask B seed acc) : IsMask B seed (mgf1Loop B seed len fuel (BitVec.ofNat 32 ctr) acc).1 := by
  induction fuel generalizing ctr acc with
  | zero => exact mask
  | succ fuel ih =>
    unfold mgf1Loop
    split
    · have next : BitVec.ofNat 32 ctr + 1#32 = BitVec.ofNat 32 (ctr + 1) := (BitVec.ofNat_add ..).symm
      simp only [hashPort_fst, next]
      refine ih ?_ (mask.append_digest aligned)
      rw [List.length_append, B.hash_length, aligned, Nat.succ_mul]
    · exact mask

theorem mgf1_isMask (B : Build) (seed : Bytes) (len : Nat) : IsMask B seed (mgf1 B seed len).1 :=
  (mgf1Loop_isMask len len (ctr := 0) (by simp) isMask_nil).take len

/-! ### The command, by the case its operands are in -/

variable {s : State} {len : Nat}

theorem mgf1Command_of_missing (missing : s.inp = none) :
    mgf1Command B len s = .next (s.beginCommand.fail .missingOperand) := by
  simp only [mgf1Command, State.beginCommand_inp, missing]

theorem mgf1Command_of_inp (hinp : s.inp = some seed) :
    mgf1Command B len s =
      if B.cap < len then .next (s.beginCommand.fail .lenRange)
      else .next ((s.beginCommand.record (maskCalls B seed len)).setOut (mgf1 B seed len).1).done := by
  simp only [mgf1Command, State.beginCommand_inp, hinp, mgf1_calls]

theorem exec_mgf1_of_fits (hinp : s.inp = some seed) (fits : len ≤ Config.build.cap) :
    exec (.mgf1 len) s =
      .next ((s.beginCommand.record (maskCalls Config.build seed len)).setOut (mgf1 Config.build seed len).1).done :=
  (mgf1Command_of_inp hinp).trans (if_neg (not_lt.mpr fits))

end

/-- Settles O32: presence first, then the length; each branch's state is the listed one. -/
theorem mgf1WritesTheMaskOfIn : Obligations.Mgf1WritesTheMaskOfIn := by
  intro s len
  refine ⟨fun seed => exec_mgf1_of_fits, mgf1Command_of_missing, fun present long => ?_⟩
  obtain ⟨seed, hinp⟩ := Option.ne_none_iff_exists'.mp present
  exact (mgf1Command_of_inp hinp).trans (if_pos long)

/-- Settles O33: the calls and the length are known, and the loop's accumulator is always a mask. -/
theorem mgf1LoopEqualsItsClosedForm : Obligations.Mgf1LoopEqualsItsClosedForm := fun seed len =>
  ⟨mgf1_calls _ seed len, mgf1_length _ seed len, fun j hj => mgf1_isMask _ seed len j (by rwa [mgf1_length])⟩

/-- Settles O34: the first command leaves `IN`, so both masks are of one seed, and the shorter begins the longer. -/
theorem mgf1MasksOfOneSeedArePrefixes : Obligations.Mgf1MasksOfOneSeedArePrefixes := by
  intro s seed a b hinp hab hb
  have begins := (mgf1_isMask Config.build seed a).eq_take (mgf1_isMask Config.build seed b) (by simpa using hab)
  rw [mgf1_length] at begins
  exact ⟨_, _, _, _, exec_mgf1_of_fits hinp (hab.trans hb), exec_mgf1_of_fits hinp hb, rfl, rfl,
    mgf1_length _ _ _, begins⟩

end Sys2Proof.Proofs
end

section
/-! PROOF. `OAEP_PAD` (43_oaep.md R156): the command by the case its operands are in, the padded message's form (R164) and
port trace (R162), and the one draw of a command (R160). -/

namespace Sys2Proof.Proofs

open Sys2Proof Sys2Proof.Machine

section
variable {B : Build} {s t : State} {n : Nat} {m label : Bytes}

/-! ### The command, by the case its operands are in -/

theorem oaepPadCommand_of_missing (missing : s.n = none ∨ s.inp = none ∨ s.lbl = none) :
    oaepPadCommand B s = .next (s.beginCommand.fail .missingOperand) := by
  unfold oaepPadCommand
  simp only [State.beginCommand_n, State.beginCommand_inp, State.beginCommand_lbl]
  split
  · next hn hm hl => simp [hn, hm, hl] at missing
  · rfl

theorem oaepPadCommand_of_long (hn : s.n = some n) (hm : s.inp = some m) (hl : s.lbl = some label)
    (long : bytelen n < m.length + 2 * B.hlen + 2) :
    oaepPadCommand B s = .next (s.beginCommand.fail .msgTooLong) := by
  have tooLong : msgTooLong B (bytelen n) m = true := by
    rw [msgTooLong, decide_eq_true_eq]
    omega
  simp only [oaepPadCommand, State.beginCommand_n, State.beginCommand_inp, State.beginCommand_lbl, hn, hm, hl, tooLong,
    if_true]

/-- A pad that ended in success had its operands and a message that fits. -/
theorem oaepPadCommand_of_ok (h : oaepPadCommand B s = .next t) (ok : t.status = 0x00000001#32) :
    ∃ n m label, s.n = some n ∧ s.inp = some m ∧ s.lbl = some label ∧ m.length + 2 * B.hlen + 2 ≤ bytelen n ∧
      t = paddedState B s (bytelen n) m label := by
  rcases oaepPadCommand_cases B s with ⟨c, eq⟩ | ⟨n, m, label, hn, hm, hl, fits, eq⟩ <;> cases eq.symm.trans h
  · exact absurd ok (statusWord_ne_ok c)
  · exact ⟨n, m, label, hn, hm, hl, fits, rfl⟩

theorem paddedState_trace (B : Build) (s : State) (k : Nat) (m label : Bytes) :
    (paddedState B s k m label).trace = s.trace ++ [.hash (label ++ [0x00#8]), .rand B.hlen] ++
      (oaepMask B (s.randAnswer B B.hlen) (dataBlock B k (B.hash (label ++ [0x00#8])) m)).2 := by
  simp [paddedState]

theorem oaepPadCommand_draws (h : oaepPadCommand B s = .next t) :
    t.draws = if t.status = 0x00000001#32 then s.draws + 1 else s.draws := by
  rcases oaepPadCommand_cases B s with ⟨c, eq⟩ | ⟨n, m, label, -, -, -, -, eq⟩ <;> cases eq.symm.trans h
  · exact (if_neg (statusWord_ne_ok c)).symm
  · exact (if_pos rfl).symm

/-! ### The parts of the data block and of the padded message -/

theorem dataBlock_take {lHash : Bytes} (hl : lHash.length = B.hlen) (k : Nat) (m : Bytes) :
    (dataBlock B k lHash m).take B.hlen = lHash := by
  simp [dataBlock, ← hl]

theorem dataBlock_drop {lHash : Bytes} (hl : lHash.length = B.hlen) (k : Nat) (m : Bytes) :
    (dataBlock B k lHash m).drop B.hlen = zeros (k - m.length - 2 * B.hlen - 2) ++ 0x01#8 :: m := by
  simp [dataBlock, ← hl]

/-- Behind the leading byte and the masked seed stands the masked DB (43_oaep.md R155). -/
theorem oaepMask_drop {seed : Bytes} (hs : seed.length = B.hlen) (db : Bytes) :
    (oaepMask B seed db).1.drop (B.hlen + 1) = xorBytes db (mgf1 B seed db.length).1 := by
  rw [oaepMask_fst]
  exact List.drop_left' (by simp [hs])

/-- A mask of `HLEN` bytes takes one hash, with the counter 0 (42_mgf1.md R142). -/
@[simp] theorem maskCalls_hlen (B : Build) (seed : Bytes) :
    maskCalls B seed B.hlen = [.hash (seed ++ [0x00#8, 0x00#8, 0x00#8, 0x00#8])] := by
  rw [maskCalls, hashCount_hlen]
  rfl

/-- The calls of masking: those of the DB's mask, then the hash of the masked DB (43_oaep.md R162). -/
theorem oaepMask_calls {seed : Bytes} (hs : seed.length = B.hlen) (db : Bytes) :
    (oaepMask B seed db).2 = maskCalls B seed db.length ++
      [.hash ((oaepMask B seed db).1.drop (B.hlen + 1) ++ [0x00#8, 0x00#8, 0x00#8, 0x00#8])] := by
  rw [oaepMask_drop hs]
  simp [oaepMask]

/-- With DB fixed, the seed can be read off the padded message (43_oaep.md R164 d). -/
theorem oaepMask_inj_seed {seed seed' : Bytes} (hs : seed.length = B.hlen) (hs' : seed'.length = B.hlen) (db : Bytes) :
    (oaepMask B seed db).1 = (oaepMask B seed' db).1 ↔ seed = seed' := by
  refine ⟨fun same => ?_, fun same => by rw [same]⟩
  have unmasked : (seed, db) = (seed', db) := by
    rw [← oaepUnmask_oaepMask B seed db hs, same, oaepUnmask_oaepMask B seed' db hs']
  exact (Prod.mk.inj unmasked).1

/-- A string that leads with a zero byte is, as an integer, below a power of 256 one smaller than its length. -/
theorem bytesToInt_lt_of_zero_lead {b : Bytes} (lead : b.head? = some 0x00#8) : bytesToInt b < 256 ^ (b.length - 1) := by
  obtain ⟨rest, rfl⟩ := List.head?_eq_some_iff.mp lead
  rw [bytesToInt_zero_cons]
  exact bytesToInt_lt rest

theorem pow_bytelen_pred_le (h : 0 < bytelen n) : 256 ^ (bytelen n - 1) ≤ n :=
  not_lt.mp fun below => by
    have := (bytelen_le_iff n _).mpr below
    omega

end

/-- Settles O35: the padded state is the nine steps' state; a missing operand and a long message fail first. -/
theorem oaepPadFollowsItsNineSteps : Obligations.OaepPadFollowsItsNineSteps := by
  refine fun s => ⟨fun n m label hn hm hl fits => ?_, oaepPadCommand_of_missing, fun n m hn hm present long => ?_⟩
  · have trace := paddedState_trace Config.build s (bytelen n) m label
    rw [oaepMask, ← List.append_assoc] at trace
    exact (oaepPadCommand_next hn hm hl (by omega)).trans
      (congrArg (fun calls => Host.Outcome.next { paddedState Config.build s (bytelen n) m label with trace := calls }) trace)
  · obtain ⟨label, hl⟩ := Option.ne_none_iff_exists'.mp present
    exact oaepPadCommand_of_long hn hm hl (by omega)

/-- Settles O36: the message is `k` bytes long with a zero in front, and `k` is the least length for the modulus. -/
theorem paddedMessageIsBelowTheModulus : Obligations.PaddedMessageIsBelowTheModulus := by
  intro s t n hn h ok
  obtain ⟨n', m, label, hn', -, -, fits, rfl⟩ := oaepPadCommand_of_ok h ok
  cases hn.symm.trans hn'
  have length := paddedMessage_length s label fits
  have below := bytesToInt_lt_of_zero_lead (oaepMask_head Config.build
    (s.randAnswer Config.build Config.build.hlen) (dataBlock Config.build (bytelen n) (Config.build.hash (label ++ [0x00#8])) m))
  rw [length] at below
  exact ⟨_, rfl, length, oaepMask_head _ _ _, below, pow_bytelen_pred_le (by omega)⟩

/-- Settles O37: both pads mask the same DB, and the seed can be read off the message. -/
theorem padOutputsAreEqualIffSeedsAre : Obligations.PadOutputsAreEqualIffSeedsAre := by
  intro s s' t t' same_n same_inp same_lbl h h' ok
  obtain ⟨n, m, label, hn, hm, hl, fits, rfl⟩ := oaepPadCommand_of_ok h ok
  cases (oaepPadCommand_next (same_n ▸ hn) (same_inp ▸ hm) (same_lbl ▸ hl) fits).symm.trans h'
  exact Option.some_inj.trans (oaepMask_inj_seed (randAnswer_length _ s _) (randAnswer_length _ s' _) _)

/-- Settles O38: the label's hash, the draw, and the calls of masking a DB of `k - HLEN - 1` bytes. -/
theorem padPortTraceIsAsListed : Obligations.PadPortTraceIsAsListed := by
  intro s t n label em hn hl h ok out
  obtain ⟨n', m, label', hn', -, hl', fits, rfl⟩ := oaepPadCommand_of_ok h ok
  cases hn.symm.trans hn'
  cases hl.symm.trans hl'
  cases out
  rw [paddedState_trace, oaepMask_calls (randAnswer_length _ _ _), dataBlock_length _ _ _ _ (Config.build.hash_length _) fits,
    ← List.append_assoc]
  rfl

/-- By the frame of the other commands (10_state.md R41). -/
theorem exec_draws_of_ne_oaepPad {i : Instr} {s t : State} (other : i ≠ .oaepPad) (h : exec i s = .next t) :
    t.draws = s.draws := by
  obtain ⟨cmLoad, crtModpow, mgf1, -, oaepUnpad⟩ := commandsChangeOnlyWhatTheyWrite s t
  cases i with
  | cmLoad => rw [cmLoad h]
  | crtModpow => rw [crtModpow h]
  | mgf1 len => rw [mgf1 len h]
  | oaepPad => exact absurd rfl other
  | oaepUnpad => rw [oaepUnpad h]

/-- Settles O52: no other command draws, and a pad that fails has not drawn. -/
theorem onlyASuccessfulPadDrawsAndOnce : Obligations.OnlyASuccessfulPadDrawsAndOnce := by
  intro i s t h
  by_cases pad : i = .oaepPad
  · subst pad
    simpa using oaepPadCommand_draws h
  · rw [exec_draws_of_ne_oaepPad pad h, if_neg fun both => pad both.1]

end Sys2Proof.Proofs
end

section
/-! PROOF. `OAEP_UNPAD` (43_oaep.md R170): what the scan finds, the command by the first check that fails, its port trace by
outcome (R175), and unpad after pad (R182). -/

namespace Sys2Proof.Proofs

open Sys2Proof Sys2Proof.Machine

section
variable {B : Build} {s t : State} {em label : Bytes}

/-! ### The recovered DB and the scan -/

/-- The recovered DB has the bytes behind the leading byte and the masked seed (43_oaep.md R155). -/
theorem oaepUnmask_db_length (B : Build) (em : Bytes) : (oaepUnmask B em).1.2.length = em.length - B.hlen - 1 := by
  simp only [oaepUnmask, xorBytes_length, slice_length, mgf1_length]
  omega

/-- What the scan leaves stands in DB behind zeros (43_oaep.md R176). -/
theorem drop_eq_zeros_append_scanPadding (B : Build) (db : Bytes) :
    ∃ z, db.drop B.hlen = zeros z ++ scanPadding B db := by
  refine ⟨((db.drop B.hlen).takeWhile (fun b => b == 0x00#8)).length, ?_⟩
  have padding : (db.drop B.hlen).takeWhile (fun b => b == 0x00#8) = zeros _ :=
    List.eq_replicate_iff.mpr ⟨rfl, fun b hb => by simpa using List.mem_takeWhile_imp hb⟩
  rw [← padding, scanPadding, List.takeWhile_append_dropWhile]

theorem findMessage_of_no_marker {db : Bytes} (absent : ∀ z m, db.drop B.hlen ≠ zeros z ++ 0x01#8 :: m) :
    findMessage B db = .error .padNoMarker := by
  obtain ⟨z, tail⟩ := drop_eq_zeros_append_scanPadding B db
  unfold findMessage
  split
  · rfl
  · next marker m found =>
    rw [found] at tail
    exact if_pos fun (one : marker = 0x01#8) => absent z m (one ▸ tail)

theorem findMessage_error {db : Bytes} {c : Failure} (h : findMessage B db = .error c) :
    c = .padNoMarker ∨ c = .padEmptyMsg := by
  unfold findMessage at h
  split at h
  · exact .inl (Except.error.inj h).symm
  · split_ifs at h
    · exact .inl (Except.error.inj h).symm
    · exact .inr (Except.error.inj h).symm

/-! ### The command, by the first check that fails -/

theorem oaepUnpadCommand_of_missing (missing : s.inp = none ∨ s.lbl = none) :
    oaepUnpadCommand B s = .next (s.beginCommand.fail .missingOperand) := by
  unfold oaepUnpadCommand
  simp only [State.beginCommand_inp, State.beginCommand_lbl]
  split
  · next hem hl => simp [hem, hl] at missing
  · rfl

section
variable (hem : s.inp = some em) (hl : s.lbl = some label)
include hem hl

theorem oaepUnpadCommand_of_short (short : em.length < 2 * B.hlen + 2) :
    oaepUnpadCommand B s = .next (s.beginCommand.fail .padShort) := by
  simp only [oaepUnpadCommand, State.beginCommand_inp, State.beginCommand_lbl, hem, hl, short, if_true]

variable (long : 2 * B.hlen + 2 ≤ em.length)
include long

theorem oaepUnpadCommand_of_lead (lead : em.head? ≠ some 0x00#8) :
    oaepUnpadCommand B s = .next (s.beginCommand.fail .padLead) := by
  simp only [oaepUnpadCommand, State.beginCommand_inp, State.beginCommand_lbl, hem, hl, not_lt.mpr long, lead, if_false,
    ne_eq, not_false_eq_true, if_true]

variable (lead : em.head? = some 0x00#8)
include lead

theorem oaepUnpadCommand_of_findMessage_error {c : Failure} (lost : findMessage B (oaepUnmask B em).1.2 = .error c) :
    oaepUnpadCommand B s = .next ((s.beginCommand.record (oaepUnmask B em).2).fail c) := by
  simp only [oaepUnpadCommand, State.beginCommand_inp, State.beginCommand_lbl, hem, hl, not_lt.mpr long, lead, if_false,
    ne_eq, not_true_eq_false, lost]

theorem oaepUnpadCommand_of_foreign_label {m : Bytes} (found : findMessage B (oaepUnmask B em).1.2 = .ok m)
    (foreign : (oaepUnmask B em).1.2.take B.hlen ≠ B.hash (label ++ [0x00#8])) :
    oaepUnpadCommand B s =
      .next (((s.beginCommand.record (oaepUnmask B em).2).record [.hash (label ++ [0x00#8])]).fail .padLabel) := by
  simp only [oaepUnpadCommand, State.beginCommand_inp, State.beginCommand_lbl, hem, hl, not_lt.mpr long, lead, if_false,
    ne_eq, not_true_eq_false, found, labelHash_fst, labelHash_snd, foreign, not_false_eq_true, if_true]

end

/-- An unpad that ended in success found a message (43_oaep.md R179). -/
theorem oaepUnpadCommand_of_ok (h : oaepUnpadCommand B s = .next t) (ok : t.status = 0x00000001#32) :
    ∃ em m, s.inp = some em ∧ 2 * B.hlen + 2 ≤ em.length ∧ findMessage B (oaepUnmask B em).1.2 = .ok m ∧
      t.out = some m := by
  rcases oaepUnpadCommand_cases B s with ⟨c, calls, -, eq⟩ | ⟨em, label, m, hem, -, long, -, found, -, eq⟩ <;>
    cases eq.symm.trans h
  · exact absurd ok (statusWord_ne_ok c)
  · exact ⟨em, m, hem, long, found, rfl⟩

/-- A message that is found is shorter than its EM by the leading byte, the seed, the label hash and the marker
(43_oaep.md R179). -/
theorem findMessage_length {m : Bytes} (long : 2 * B.hlen + 2 ≤ em.length)
    (found : findMessage B (oaepUnmask B em).1.2 = .ok m) :
    1 ≤ m.length ∧ m.length + 2 * B.hlen + 2 ≤ em.length := by
  obtain ⟨nonempty, z, tail⟩ := findMessage_ok found
  have lengths := congrArg List.length tail
  rw [List.length_drop, oaepUnmask_db_length, List.length_append, List.length_cons, zeros_length] at lengths
  exact ⟨List.length_pos_iff.mpr nonempty, by omega⟩

/-- The calls an unpad has made, with the `STATUS` words that tell where it ended (43_oaep.md R175). -/
theorem oaepUnpadCommand_trace_status (hem : s.inp = some em) (hl : s.lbl = some label)
    (h : oaepUnpadCommand B s = .next t) :
    (t.trace = s.trace ∧ (t.status = 0x00001032#32 ∨ t.status = 0x00001132#32)) ∨
    (t.trace = s.trace ++ (oaepUnmask B em).2 ∧ (t.status = 0x00001232#32 ∨ t.status = 0x00001332#32)) ∨
    (t.trace = s.trace ++ (oaepUnmask B em).2 ++ [.hash (label ++ [0x00#8])] ∧
      (t.status = 0x00001432#32 ∨ t.status = 0x00000001#32)) := by
  by_cases long : 2 * B.hlen + 2 ≤ em.length
  · by_cases lead : em.head? = some 0x00#8
    · cases result : findMessage B (oaepUnmask B em).1.2 with
      | error c =>
        cases (oaepUnpadCommand_of_findMessage_error hem hl long lead result).symm.trans h
        exact .inr (.inl ⟨rfl, (findMessage_error result).imp (congrArg Failure.statusWord) (congrArg Failure.statusWord)⟩)
      | ok m =>
        by_cases same : (oaepUnmask B em).1.2.take B.hlen = B.hash (label ++ [0x00#8])
        · cases (oaepUnpadCommand_next hem hl long lead result same).symm.trans h
          exact .inr (.inr ⟨rfl, .inr rfl⟩)
        · cases (oaepUnpadCommand_of_foreign_label hem hl long lead result same).symm.trans h
          exact .inr (.inr ⟨rfl, .inl rfl⟩)
    · cases (oaepUnpadCommand_of_lead hem hl long lead).symm.trans h
      exact .inl ⟨rfl, .inr rfl⟩
  · cases (oaepUnpadCommand_of_short hem hl (not_le.mp long)).symm.trans h
    exact .inl ⟨rfl, .inl rfl⟩

end

/-! ### The five checks in the terms of the statements -/

/-- Settles O40: each raw check comes before any port call. -/
theorem oaepUnpadChecksTheRawInputFirst : Obligations.OaepUnpadChecksTheRawInputFirst := by
  refine fun s => ⟨oaepUnpadCommand_of_missing, fun em hem present => ?_⟩
  obtain ⟨label, hl⟩ := Option.ne_none_iff_exists'.mp present
  exact ⟨oaepUnpadCommand_of_short hem hl, oaepUnpadCommand_of_lead hem hl⟩

/-- Settles O41: the scan fails before the label is hashed. -/
theorem oaepUnpadChecksTheBlockStructure : Obligations.OaepUnpadChecksTheBlockStructure := by
  intro s em hem present long lead
  obtain ⟨label, hl⟩ := Option.ne_none_iff_exists'.mp present
  obtain ⟨db, calls⟩ := oaepUnmask_eq_recovered em
  rw [← db, ← calls]
  refine ⟨fun absent => ?_, fun z empty => ?_⟩
  · exact oaepUnpadCommand_of_findMessage_error hem hl long lead (findMessage_of_no_marker absent)
  · exact oaepUnpadCommand_of_findMessage_error hem hl long lead (findMessage_marker _ _ [] z empty)

/-- Settles O42: the scan finds the message, and only the label's hash is left to compare. -/
theorem oaepUnpadChecksTheLabelLast : Obligations.OaepUnpadChecksTheLabelLast := by
  intro s em label m z hem hl long lead tail nonempty foreign
  obtain ⟨db, calls⟩ := oaepUnmask_eq_recovered em
  rw [← db] at tail foreign
  rw [← calls]
  have found := (findMessage_marker _ _ m z tail).trans (if_neg nonempty)
  exact oaepUnpadCommand_of_foreign_label hem hl long lead found foreign

/-- Settles O43: the scan finds the message, and the label's hash is the embedded one. -/
theorem oaepUnpadReturnsTheMessage : Obligations.OaepUnpadReturnsTheMessage := by
  intro s em label m z hem hl long lead tail nonempty same
  obtain ⟨db, calls⟩ := oaepUnmask_eq_recovered em
  rw [← db] at tail same
  rw [← calls]
  have found := (findMessage_marker _ _ m z tail).trans (if_neg nonempty)
  exact oaepUnpadCommand_next hem hl long lead found same

/-- Settles O44: success means a message was found, and it is not empty. -/
theorem unpaddedMessageFitsTheInput : Obligations.UnpaddedMessageFitsTheInput := by
  intro s t em hem h ok
  obtain ⟨em', m, hem', long, found, out⟩ := oaepUnpadCommand_of_ok h ok
  cases hem.symm.trans hem'
  obtain ⟨nonempty, fits⟩ := findMessage_length long found
  exact ⟨by omega, m, out, nonempty, fits⟩

/-- Settles O45: three lists of `STATUS` words, no word in two of them. -/
theorem unpadPortTraceTellsTheCheck : Obligations.UnpadPortTraceTellsTheCheck := by
  intro s t em label hem hl h
  have masks := (oaepUnmask_eq_recovered em).2
  simp only [recovered, mgf1_calls, maskCalls_hlen] at masks
  have outcome := oaepUnpadCommand_trace_status hem hl h
  rw [masks] at outcome
  rcases outcome with ⟨trace, status | status⟩ | ⟨trace, status | status⟩ | ⟨trace, status | status⟩ <;>
    simp [status, trace]

/-! ### Unpad after pad -/

section
variable {B : Build} {s : State} {n : Nat} {m label : Bytes}

/-- A pad whose operands fit leaves an EM that passes unpad's raw checks and hides the message and the label's hash. -/
theorem oaepPadCommand_unpaddable (hn : s.n = some n) (hm : s.inp = some m) (hl : s.lbl = some label)
    (fits : m.length + 2 * B.hlen + 2 ≤ bytelen n) :
    ∃ t em, oaepPadCommand B s = .next t ∧ t.status = 0x00000001#32 ∧ t.out = some em ∧ t.lbl = some label ∧
      2 * B.hlen + 2 ≤ em.length ∧ em.head? = some 0x00#8 ∧
      findMessage B (oaepUnmask B em).1.2 = (if m = [] then .error .padEmptyMsg else .ok m) ∧
      (oaepUnmask B em).1.2.take B.hlen = B.hash (label ++ [0x00#8]) := by
  have hash := B.hash_length (label ++ [0x00#8])
  refine ⟨_, _, oaepPadCommand_next hn hm hl fits, rfl, rfl, hl, ?_, oaepMask_head _ _ _, ?_, ?_⟩
  · rw [paddedMessage_length s label fits]
    omega
  · rw [oaepUnmask_oaepMask _ _ _ (randAnswer_length _ _ _)]
    exact findMessage_marker _ _ m _ (dataBlock_drop hash _ m)
  · rw [oaepUnmask_oaepMask _ _ _ (randAnswer_length _ _ _)]
    exact dataBlock_take hash _ m

end

/-- Settles O39: the marker of an empty message is DB's last byte. -/
theorem paddedEmptyMessageIsRejected : Obligations.PaddedEmptyMessageIsRejected := by
  intro s n label hn hm hl fits
  obtain ⟨t, em, pad, ok, out, lbl, long, lead, empty, -⟩ :=
    oaepPadCommand_unpaddable (B := Config.build) hn hm hl (by simpa using fits)
  exact ⟨t, em, _, pad, ok, out,
    oaepUnpadCommand_of_findMessage_error (s := { t with inp := some em }) rfl lbl long lead empty, rfl, rfl⟩

/-- Settles O46: unpad finds the message that pad hid, and the same label has the same hash. -/
theorem unpadOfPadGivesTheMessageBack : Obligations.UnpadOfPadGivesTheMessageBack := by
  intro s n m label hn hm hl nonempty fits
  obtain ⟨t, em, pad, ok, out, lbl, long, lead, found, same⟩ :=
    oaepPadCommand_unpaddable (B := Config.build) hn hm hl fits
  rw [if_neg (List.length_pos_iff.mp nonempty)] at found
  exact ⟨t, em, _, pad, ok, out,
    oaepUnpadCommand_next (s := { t with inp := some em }) rfl lbl long lead found same, rfl, rfl⟩

/-- Settles O47: unpad finds the message that pad hid, beside the hash of the label it was padded under. -/
theorem unpadUnderAnotherLabelFailsAtTheLabel : Obligations.UnpadUnderAnotherLabelFailsAtTheLabel := by
  intro B s n m label other hn hm hl nonempty fits differs
  obtain ⟨t, em, pad, -, out, -, long, lead, found, same⟩ := oaepPadCommand_unpaddable hn hm hl fits
  rw [if_neg (List.length_pos_iff.mp nonempty)] at found
  exact ⟨t, em, _, pad, out, oaepUnpadCommand_of_foreign_label (s := { t with inp := some em, lbl := some other }) rfl rfl
    long lead found (same ▸ differs.symm), rfl, rfl⟩

end Sys2Proof.Proofs
end

section
/-! PROOF. The statements of 60_exceptions.md: the `STATUS` word of each failure (R192), what a command leaves that succeeds
(R195) or fails (R196), and what every step keeps: `STATUS` outside commands and reset (R214), the queue (R213, R197). -/

namespace Sys2Proof.Proofs

open Sys2Proof Sys2Proof.Machine

/-! ### R192: the failures -/

/-- The fields of a failure's word (10_state.md R29, R31); `STATE` is in `statusState_statusWord`. -/
theorem statusWord_fields (c : Failure) :
    statusClass c.statusWord = c.class ∧ statusCode c.statusWord = c.code ∧
      c.statusWord &&& 0xFFFF000C#32 = 0x00000000#32 := by
  cases c <;> decide

/-- Settles O57: the words row by row, the fields failure by failure. -/
theorem failureStatusWordsAreTheTable : Obligations.FailureStatusWordsAreTheTable :=
  ⟨rfl, fun c => ⟨statusState_statusWord c, statusWord_fields c⟩⟩

/-! ### R195, R196: how a command ends -/

/-- The states a command that began in `s` can end in: a failure after some port calls (R196), or the success of that command
with its result (R195). -/
inductive Ending (B : Build) (s : State) : Instr → State → Prop where
  | failed {i : Instr} (calls : List PortCall) (c : Failure) : Ending B s i ((s.beginCommand.record calls).fail c)
  | latched (m : CompositeModulus) : Ending B s .cmLoad (s.beginCommand.setCm m).done
  | powered (calls : List PortCall) (v : Nat) : Ending B s .crtModpow ((s.beginCommand.record calls).setR v).done
  | masked (calls : List PortCall) (b : Bytes) : Ending B s (.mgf1 b.length) ((s.beginCommand.record calls).setOut b).done
  | padded (k : Nat) (m label : Bytes) : Ending B s .oaepPad (paddedState B s k m label)
  | unpadded (calls : List PortCall) (m : Bytes) :
      Ending B s .oaepUnpad ((s.beginCommand.record calls).setOut m).done

section
variable {B : Build} {s t : State} {i : Instr}

/-- A failure before the first port call. -/
theorem Ending.silent (c : Failure) : Ending B s i (s.beginCommand.fail c) := by
  simpa using Ending.failed (B := B) (s := s) (i := i) [] c

theorem ending_of_commandIn (h : commandIn B i s = .next t) : Ending B s i t := by
  cases i with
  | cmLoad =>
    rcases execCmLoad_cases s with ⟨c, eq⟩ | ⟨n, p, q, gf, -, -, -, -, -, -, -, -, eq⟩ <;> cases eq.symm.trans h
    · exact .silent c
    · exact .latched _
  | crtModpow =>
    rcases execCrtModpow_cases s with ⟨c, eq⟩ | ⟨m, x, exp, -, -, -, -, -, eq⟩
    · cases eq.symm.trans h
      exact .silent c
    · split_ifs at eq <;> cases eq.symm.trans h
      exact .powered _ _
  | mgf1 len =>
    rcases mgf1Command_cases B len s with ⟨c, eq⟩ | ⟨seed, -, -, eq⟩ <;> cases eq.symm.trans h
    · exact .silent c
    · simpa using Ending.masked (B := B) (s := s) (mgf1 B seed len).2 (mgf1 B seed len).1
  | oaepPad =>
    rcases oaepPadCommand_cases B s with ⟨c, eq⟩ | ⟨n, m, label, -, -, -, -, eq⟩ <;> cases eq.symm.trans h
    · exact .silent c
    · exact .padded _ m label
  | oaepUnpad =>
    rcases oaepUnpadCommand_cases B s with ⟨c, calls, -, eq⟩ | ⟨em, label, m, -, -, -, -, -, -, eq⟩ <;>
      cases eq.symm.trans h
    · exact .failed calls c
    · rw [State.record_record]
      exact .unpadded _ m

theorem ending_of_exec (h : exec i s = .next t) : Ending Config.build s i t :=
  ending_of_commandIn ((exec_eq_commandIn i s).symm.trans h)

end

/-- Settles O49: of the ways to end only a failure leaves a `STATUS` other than 1. -/
theorem failedCommandLeavesOperandsAndCm : Obligations.FailedCommandLeavesOperandsAndCm := by
  intro i s t h notOk
  cases ending_of_exec h with
  | failed calls c => exact ⟨statusState_statusWord c, rfl⟩
  | latched | powered | masked | padded | unpadded => exact absurd rfl notOk

/-- Settles O50: a failure's `STATE` is 2; each success has written its one result after `R` and `OUT` were invalidated. -/
theorem successfulCommandLeavesItsResult : Obligations.SuccessfulCommandLeavesItsResult := by
  intro i s t h ok
  cases ending_of_exec h with
  | failed calls c => simp [statusState_statusWord] at ok
  | latched m => exact ⟨rfl, Option.some_ne_none _, rfl, rfl⟩
  | powered calls v => exact ⟨rfl, Option.some_ne_none _, rfl⟩
  | masked calls b => exact ⟨rfl, rfl, b, rfl, rfl⟩
  | padded k m label => exact ⟨rfl, rfl, Option.some_ne_none _⟩
  | unpadded calls m => exact ⟨rfl, rfl, Option.some_ne_none _⟩

/-! ### R213, R214: what every step keeps -/

/-- Settles O7: the idle step of an empty queue. -/
theorem idleStepHoldsTheState : Obligations.IdleStepHoldsTheState := fun _ => step_of_idle

/-- Settles O19: of what a transaction can do, a read, a refusal and the write of an operand leave `STATUS`. -/
theorem onlyCommandsAndResetWriteStatus : Obligations.OnlyCommandsAndResetWriteStatus := by
  intro s t h changed
  cases queue : s.pending with
  | nil =>
    cases (step_of_idle queue).symm.trans h
    exact absurd rfl changed
  | cons tr rest =>
    rw [step_of_pending queue] at h
    rcases transact_cases Config.build exec tr (s.take rest) with
      ⟨rfl, -⟩ | ⟨w, rfl, -⟩ | ⟨a, eq⟩ | ⟨i, b, -, eq⟩ | ⟨i, b, -, eq⟩
    · exact ⟨rest, .inl rfl⟩
    · exact ⟨rest, .inr ⟨w, rfl⟩⟩
    all_goals
      cases eq.symm.trans h
      simp at changed

/-- Under the invariant every transaction is taken to a next state, the rest of the queue as it was. -/
theorem transact_next {B : Build} {s : State} (h : s.Inv B) (tr : Transaction) :
    ∃ t, transact B (commandIn B) tr s = .next t ∧ t.pending = s.pending := by
  rcases transact_cases B (commandIn B) tr s with ⟨-, eq⟩ | ⟨w, -, eq⟩ | ⟨a, eq⟩ | ⟨i, b, -, eq⟩ | ⟨i, b, -, eq⟩
  · exact ⟨_, eq, rfl⟩
  · obtain ⟨t, runs, pending, -, -⟩ := runWord_ends (inv_respond h .okay) w
    exact ⟨t, eq.trans runs, pending⟩
  · exact ⟨_, eq, rfl⟩
  · exact ⟨_, eq, by simp⟩
  · exact ⟨_, eq, by simp⟩

/-- Settles O56: an empty queue is the idle step; otherwise the transaction taken is answered, since every command ends. -/
theorem noStepStopsTheMachine : Obligations.NoStepStopsTheMachine := by
  intro s inv
  cases queue : s.pending with
  | nil => exact ⟨s, step_of_idle queue, queue⟩
  | cons tr rest =>
    rw [step_of_pending queue, funext₂ exec_eq_commandIn]
    exact transact_next (inv_take inv rest) tr

end Sys2Proof.Proofs
end

section
/-! PROOF. The statements of 70_reset_and_hazards.md: what the reset input does, and that nothing else invalidates an operand
register or `CM` or takes `STATE` back to IDLE (R220). -/

namespace Sys2Proof.Proofs

open Sys2Proof Sys2Proof.Machine

/-- Settles O22: the step is `State.resetInput` once the reset input has left the queue. -/
theorem resetInputEntersTheResetState : Obligations.ResetInputEntersTheResetState := fun _ _ queue => step_of_pending queue

/-! ### What only reset undoes -/

/-- From `s` to `t` no operand register turned invalid, nor did `CM`, and `STATE` did not return to IDLE. -/
structure KeepsValid (s t : State) : Prop where
  ints : ∀ i, s.readInt i ≠ none → t.readInt i ≠ none
  bufs : ∀ i, s.readBuf i ≠ none → t.readBuf i ≠ none
  cm : s.cm ≠ none → t.cm ≠ none
  notIdle : statusState s.status ≠ 0 → statusState t.status ≠ 0

section
variable {B : Build} {s t : State}

theorem KeepsValid.refl (s : State) : KeepsValid s s := ⟨fun _ => id, fun _ => id, id, id⟩

theorem KeepsValid.trans {u : State} (h : KeepsValid s t) (h' : KeepsValid t u) : KeepsValid s u where
  ints i held := h'.ints i (h.ints i held)
  bufs i held := h'.bufs i (h.bufs i held)
  cm held := h'.cm (h.cm held)
  notIdle busy := h'.notIdle (h.notIdle busy)

/-! ### One rule per operation of the state -/

theorem KeepsValid.take (h : KeepsValid s t) (rest : List Transaction) : KeepsValid s (t.take rest) := { h with }

theorem KeepsValid.respond (h : KeepsValid s t) (a : Response) : KeepsValid s (t.respond a) := { h with }

theorem KeepsValid.beginCommand (h : KeepsValid s t) : KeepsValid s t.beginCommand := { h with }

theorem KeepsValid.record (h : KeepsValid s t) (calls : List PortCall) : KeepsValid s (t.record calls) := { h with }

theorem KeepsValid.drawn (h : KeepsValid s t) (count : Nat) : KeepsValid s (t.drawn count) := { h with }

theorem KeepsValid.setR (h : KeepsValid s t) (v : Nat) : KeepsValid s (t.setR v) := { h with }

theorem KeepsValid.setOut (h : KeepsValid s t) (b : Bytes) : KeepsValid s (t.setOut b) := { h with }

theorem KeepsValid.setCm (h : KeepsValid s t) (m : CompositeModulus) : KeepsValid s (t.setCm m) :=
  { h with cm := fun _ => Option.some_ne_none m }

theorem KeepsValid.fail (h : KeepsValid s t) (c : Failure) : KeepsValid s (t.fail c) :=
  { h with notIdle := fun _ => by simp [statusState_statusWord] }

theorem KeepsValid.done (h : KeepsValid s t) : KeepsValid s t.done :=
  { h with notIdle := fun _ => Nat.one_ne_zero }

theorem KeepsValid.writeInt (h : KeepsValid s t) (i : IntOperand) (v : Nat) : KeepsValid s (t.writeInt i v) where
  ints j held := by
    rw [State.readInt_writeInt]
    split
    · exact Option.some_ne_none v
    · exact h.ints j held
  bufs := by simpa using h.bufs
  cm := by simpa using h.cm
  notIdle := by simpa using h.notIdle

theorem KeepsValid.writeBuf (h : KeepsValid s t) (i : BufOperand) (b : Bytes) : KeepsValid s (t.writeBuf i b) where
  ints := by simpa using h.ints
  bufs j held := by
    rw [State.readBuf_writeBuf]
    split
    · exact Option.some_ne_none b
    · exact h.bufs j held
  cm := by simpa using h.cm
  notIdle := by simpa using h.notIdle

/-! ### A command, a transaction, a step -/

/-- However a command ends, it has written no operand register, and `CM` and `STATUS` with a value and OK or FAIL. -/
theorem Ending.keepsValid {i : Instr} (ending : Ending B s i t) : KeepsValid s t := by
  have begun : KeepsValid s s.beginCommand := (KeepsValid.refl s).beginCommand
  cases ending with
  | failed calls c => exact (begun.record calls).fail c
  | latched m => exact (begun.setCm m).done
  | powered calls v => exact ((begun.record calls).setR v).done
  | masked calls b => exact ((begun.record calls).setOut b).done
  | padded k m label => exact ((((begun.record _).drawn _).record _).setOut _).done
  | unpadded calls m => exact ((begun.record calls).setOut m).done

theorem runWord_keepsValid {w : Word} (h : runWord (commandIn B) w s = .next t) : KeepsValid s t := by
  cases decoded : decode w with
  | ok i =>
    rw [runWord_of_decode_ok decoded] at h
    exact (ending_of_commandIn h).keepsValid
  | error reason =>
    cases (runWord_of_decode_error decoded s).symm.trans h
    exact (KeepsValid.refl s).beginCommand.fail .illegalCmd

theorem transact_keepsValid {tr : Transaction} (h : transact B (commandIn B) tr s = .next t) (notReset : tr ≠ .reset) :
    KeepsValid s t := by
  have here := KeepsValid.refl s
  rcases transact_cases B (commandIn B) tr s with ⟨reset, -⟩ | ⟨w, -, eq⟩ | ⟨a, eq⟩ | ⟨i, b, -, eq⟩ | ⟨i, b, -, eq⟩
  · exact absurd reset notReset
  · exact (here.respond .okay).trans (runWord_keepsValid (eq.symm.trans h))
  all_goals cases eq.symm.trans h
  · exact here.respond a
  · exact (here.writeInt i _).respond .okay
  · exact (here.writeBuf i b).respond .okay

theorem step_keepsValid (h : step s = .next t) : (∃ rest, s.pending = .reset :: rest) ∨ KeepsValid s t := by
  cases queue : s.pending with
  | nil =>
    cases (step_of_idle queue).symm.trans h
    exact .inr (.refl s)
  | cons tr rest =>
    rw [step_of_pending queue, funext₂ exec_eq_commandIn] at h
    by_cases reset : tr = .reset
    · exact .inl ⟨rest, by rw [reset]⟩
    · exact .inr (((KeepsValid.refl s).take rest).trans (transact_keepsValid h reset))

end

/-- Settles O23: a step that loses one of these does not keep valid what was. -/
theorem onlyResetInvalidatesOperands : Obligations.OnlyResetInvalidatesOperands := by
  intro s t h lost
  refine (step_keepsValid h).resolve_right fun keeps => ?_
  rcases lost with ⟨i, held, gone⟩ | ⟨i, held, gone⟩ | ⟨held, gone⟩ | ⟨busy, idle⟩
  · exact keeps.ints i held gone
  · exact keeps.bufs i held gone
  · exact keeps.cm held gone
  · exact keeps.notIdle busy idle

end Sys2Proof.Proofs
end
